-- ==== Sys2Proof/Word.lean ====
section
/-! DEFINITION. The one word type of the block: a raw byte (00_scope.md R9). -/

namespace Sys2Proof

/-- An 8-bit value from the wire, without a sign until an event field is formed (R9). Bit 7 is its
most significant bit, bit 0 its least significant. -/
abbrev Byte := BitVec 8

end Sys2Proof
end

