-- ==== Sys2Proof/Config.lean ====
section
/-! DEFINITION. What is fixed for a run: the two configuration inputs (00_scope.md R7, 10_state.md R16)
and the two parameters the source leaves open that can be observed (00_scope.md R8). -/

namespace Sys2Proof

/-- The open assignment of the masks `0x02` and `0x01` to Middle and Right (R8 rows `MASK_M`, `MASK_R`;
92_eei_decisions.md D1: "the two distinct values"). The value R8 takes is `middleBit1`. -/
inductive MaskOrder where
  | middleBit1   -- MASK_M = 0x02, MASK_R = 0x01
  | middleBit0   -- MASK_M = 0x01, MASK_R = 0x02
deriving DecidableEq, Repr

/-- The configuration record of R7 and R8. `cntModulus` is `CNT_MODULUS`: `none` is the unbounded
counter (the value R8 takes), `some m` wraps modulo `m`. -/
structure Config where
  scrollEmu  : Bool
  scrollInv  : Bool
  maskOrder  : MaskOrder
  cntModulus : Option Nat
deriving DecidableEq, Repr

/-- The values R8 admits for `CNT_MODULUS`: `none`, or `some 2^k` with k >= 3. -/
def Config.Legal (c : Config) : Prop :=
  match c.cntModulus with
  | none => True
  | some m => 8 ≤ m ∧ 2 ^ Nat.log2 m = m

/-- The configuration of a run with the open parameters at the values R8 takes. -/
def Config.ofInputs (emu inv : Bool) : Config :=
  { scrollEmu := emu, scrollInv := inv, maskOrder := .middleBit1, cntModulus := none }

end Sys2Proof
end

