-- ==== Sys2Proof/Machine/Operands.lean ====
section
/-! DEFINITION. The constants of 00_scope.md R6, byte classification (30_encoding.md R46) and the operand
forms of 30_encoding.md R51 and R52: everything that reads bytes and no state. -/

namespace Sys2Proof.Machine

/-- `SYNC_MASK` (R6). -/
def syncMask : Byte := 0xF8
/-- `SYNC_VALUE` (R6). -/
def syncValue : Byte := 0x80
/-- `W_NARROW` (R6). -/
def widthNarrow : Nat := 3
/-- `W_WIDE` (R6). -/
def widthWide : Nat := 5
/-- `WIDE_GAP` (R6): the elapsed-byte count that selects Wide. -/
def wideGap : Nat := 5

/-- `IsSync(b)` (R46): the top five bits are `10000`. -/
def isSync (b : Byte) : Bool := b &&& syncMask == syncValue

/-- `Width(w)` (R9): 5 for Wide, 3 for Narrow. -/
def width (wide : Bool) : Nat := if wide then widthWide else widthNarrow

/-- The button byte `10000LMR` (R48). -/
def syncByte (l m r : Bool) : Byte :=
  0b10000#5 ++ BitVec.ofBool l ++ BitVec.ofBool m ++ BitVec.ofBool r

/-- `Neg8(v) = (0x100 - v) & 0xFF` (R9, R106 (a)). -/
def neg8 (v : Byte) : Byte := BitVec.ofNat 8 (0x100 - v.toNat)

/-- `sext_8(v)` (R9, R106 (b)): the integer whose two's-complement pattern is `v`. -/
def sext8 (v : Byte) : Int := if v.toNat < 128 then v.toNat else v.toNat - 256

/-- The plain operand form (R51 (a)). -/
def plainField (raw : Byte) : Int := sext8 raw

/-- The negated operand form (R51 (b)). -/
def negatedField (raw : Byte) : Int := sext8 (neg8 raw)

/-- The zero test on the raw bytes of a pair (R52, R105). -/
def isZeroPair (x y : Byte) : Bool := x == 0x00 && y == 0x00

end Sys2Proof.Machine
end

