-- ==== Sys2Proof/Machine/Flags.lean ====
section
/-! DEFINITION. The tests the block makes: the elapsed-byte count and the dialect flag (40_feed_sync.md R66,
R68), and the button bits (42_interpret_buttons.md R91, R94). The block has no other flag (10_state.md R13). -/

namespace Sys2Proof

/-- The three buttons (30_encoding.md R55). -/
inductive ButtonId where
  | left
  | middle
  | right
deriving DecidableEq, Repr

namespace Machine

/-- `CNT + 1` (R65, R106 (d)): on natural numbers, or modulo `m` when `CNT_MODULUS = some m`. -/
def nextCount (c : Config) (cnt : Nat) : Nat :=
  match c.cntModulus with
  | none => cnt + 1
  | some m => (cnt + 1) % m

/-- `WIDE <- (CNT == 5)` (R68): the count tested includes the sync byte itself. -/
def inferWide (cnt : Nat) : Bool := cnt == wideGap

/-- The mask of a button: `MASK_L = 0x04` (R6); `MASK_M` and `MASK_R` as the configuration assigns
them (R8). -/
def buttonMask (c : Config) : ButtonId → Byte
  | .left => 0x04
  | .middle => match c.maskOrder with
    | .middleBit1 => 0x02
    | .middleBit0 => 0x01
  | .right => match c.maskOrder with
    | .middleBit1 => 0x01
    | .middleBit0 => 0x02

/-- A clear bit means pressed (R48): `(btn & m) == 0`. -/
def isPressed (c : Config) (id : ButtonId) (btn : Byte) : Bool := btn &&& buttonMask c id == 0

/-- `(changed & m) != 0` with `changed = btn ^ PREV_BTN` (R90, R91). -/
def isChanged (c : Config) (id : ButtonId) (btn prev : Byte) : Bool :=
  (btn ^^^ prev) &&& buttonMask c id != 0

/-- `SCROLL_EMU and ((btn & MASK_M) == 0)` (R94). -/
def scrollMode (c : Config) (btn : Byte) : Bool := c.scrollEmu && isPressed c .middle btn

end Machine

end Sys2Proof
end

