-- ==== Sys2Proof/Machine/State.lean ====
section
/-! DEFINITION. The state of the block as plain data (10_state.md R10 to R18), what the environment hands
it and what it hands the environment, and the reset state. -/

namespace Sys2Proof

/-- An output of the block (30_encoding.md R55, R56). The fields are the integers -128..127 the spec
calls `Int8`, formed by `sext_8` only. -/
inductive Event where
  | move (dx dy : Int)
  | scroll (vertical horizontal : Int)
  | buttonChanged (id : ButtonId) (pressed : Bool)
deriving DecidableEq, Repr

namespace Machine

/-- What the environment can do to the block between two feeds (60_exceptions.md R122): deliver a byte
(20_memory.md R31), or restart it, which latches the two configuration inputs anew
(70_reset_and_hazards.md R135, R136). -/
inductive Input where
  | byte (b : Byte)
  | restart (emu inv : Bool)
deriving DecidableEq, Repr

/-- The state. `buf`, `len`, `cnt`, `wide`, `prevBtn` are the tuple of R10; `cfg` is the configuration
constant of a run (R16, R22). The last three are the model's own: `scroll` is the local variable of
`Interpret` (R90; log 3), `input` what the environment has offered and the block has not taken (log 1),
`out` the output stream so far, oldest event first (R32; log 2). -/
structure State where
  buf     : Vector Byte 5
  len     : Nat
  cnt     : Nat
  wide    : Bool
  prevBtn : Byte
  cfg     : Config
  scroll  : Bool
  input   : List Input
  out     : List Event
deriving DecidableEq, Repr

/-- The block raises no exception for any byte in any state (60_exceptions.md R115): there is no reason
to stop, and so no constructor. -/
inductive Fault where
deriving DecidableEq, Repr

/-- The one refusal, which no arm of `exec` answers with now that every row has its meaning. -/
inductive Refusal where
  /-- Raised by an arm of `exec` whose instruction has no meaning yet; safe (the run stops). -/
  | notModelled (mnemonic : String)
deriving DecidableEq, Repr

/-- The state construction leaves (R18, R135) under a configuration: empty buffer, count 0, Narrow, all
buttons released. The contents of `BUF` are unspecified by R18; zeros are a DESIGN CHOICE (log 4).
`LEN`, `WIDE` and bits 7:3 of `PREV_BTN` are the spec's decisions D5, D3, D4 (log 8). -/
def State.construct (c : Config) : State :=
  { buf := #v[0x00, 0x00, 0x00, 0x00, 0x00], len := 0, cnt := 0, wide := false, prevBtn := 0xFF,
    cfg := c, scroll := false, input := [], out := [] }

/-- The machine right after reset, nothing offered yet. R18 gives `SCROLL_EMU` and `SCROLL_INV` no
default: both 0 here is a DESIGN CHOICE (log 5). -/
def State.reset : State := State.construct (Config.ofInputs false false)

end Machine

end Sys2Proof
end

