-- ==== Sys2Proof/Machine/Ops.lean ====
section
/-! DEFINITION. The named operations on the state: register writes, the buffer primitives of 20_memory.md
R37, `emit` (00_scope.md R9), the count of a fed byte (40_feed_sync.md R66) and restart
(70_reset_and_hazards.md R135). The block takes no exception and returns from none (60_exceptions.md R115,
R120, R121), so there is no operation for either; the forced flush it has in a trap's place is in Sync.lean. -/

namespace Sys2Proof.Machine

namespace State

/-- `LEN <- n`. -/
def setLen (s : State) (n : Nat) : State := { s with len := n }
/-- `CNT <- n`. -/
def setCnt (s : State) (n : Nat) : State := { s with cnt := n }
/-- `WIDE <- w`. -/
def setWide (s : State) (w : Bool) : State := { s with wide := w }
/-- `PREV_BTN <- b`. -/
def setPrevBtn (s : State) (b : Byte) : State := { s with prevBtn := b }
/-- `scroll <- v`, the variable of R90. -/
def setScroll (s : State) (v : Bool) : State := { s with scroll := v }
/-- What is left of the environment's queue. -/
def setInput (s : State) (q : List Input) : State := { s with input := q }
/-- `BUF[i] <- b` (R37): entry `i` and nothing else. An index the array does not have, which no
reachable state uses (R84), writes no entry (DEDUCED, log 10). -/
def writeBuf (s : State) (i : Nat) (b : Byte) : State := { s with buf := s.buf.setIfInBounds i b }
/-- `emit e` (R9): events stand in emission order (R32). -/
def emit (s : State) (e : Event) : State := { s with out := s.out ++ [e] }
/-- `CNT <- CNT + 1` (R66), the first action of every feed. -/
def countByte (s : State) : State := s.setCnt (nextCount s.cfg s.cnt)

end State

/-- Emit `e` when the condition holds. -/
def emitIf (c : Bool) (e : Event) (s : State) : State := if c then s.emit e else s

/-- Reset at a point between two feeds (R135, R136): the values of R18, the two configuration inputs
latched, no event; a pending partial frame is lost. The open parameters of R8 belong to the block and
stay, the environment's queue goes on with `rest`, and what the sink has received it has (log 15). -/
def restart (emu inv : Bool) (rest : List Input) (s : State) : State :=
  { State.construct { s.cfg with scrollEmu := emu, scrollInv := inv } with
    input := rest, out := s.out }

end Sys2Proof.Machine
end

