-- ==== Sys2Proof/Machine/Buttons.lean ====
section
/-! DEFINITION. BTN and MODE (42_interpret_buttons.md R91, R93, R94). -/

namespace Sys2Proof.Machine

/-- The button test of R91 for one button: an event when its bit changed, pressed when its bit is clear. -/
def reportButton (id : ButtonId) (btn : Byte) (s : State) : State :=
  emitIf (isChanged s.cfg id btn s.prevBtn) (.buttonChanged id (isPressed s.cfg id btn)) s

/-- BTN (R91, R93): Left, Middle, Right in that order, then the unconditional store of the whole byte. -/
def reportButtons (btn : Byte) (s : State) : State :=
  (reportButton .right btn (reportButton .middle btn (reportButton .left btn s))).setPrevBtn btn

/-- MODE (R94): from this frame's button byte. -/
def selectMode (btn : Byte) (s : State) : State := s.setScroll (scrollMode s.cfg btn)

/-- The meaning of BTN. -/
def execBtn (b : Byte) (s : State) : Host.Outcome State Fault Refusal := .next (reportButtons b s)

/-- The meaning of MODE. -/
def execMode (b : Byte) (s : State) : Host.Outcome State Fault Refusal := .next (selectMode b s)

end Sys2Proof.Machine
end

