-- ==== Sys2Proof/Syntax.lean ====
section
/-! DEFINITION. The operations of the block, one constructor per row of spec/opcode_table.json. -/

namespace Sys2Proof

/-- The 17 rows of the table. `l`, `m`, `r` are the bits L, M, R of a button byte AS BITS (true is 1,
which means released, 30_encoding.md R48). -/
inductive Instr where
  /-- SYNC, `10000LMR` (R46, R70): a fed byte that opens a frame. -/
  | sync (l m r : Bool)
  /-- DATA_00_7F, `0xxxxxxx` (R47): a fed data byte. -/
  | data00_7F (x : BitVec 7)
  /-- DATA_C0_FF, `11xxxxxx` (R47). -/
  | dataC0_FF (x : BitVec 6)
  /-- DATA_A0_BF, `101xxxxx` (R47). -/
  | dataA0_BF (x : BitVec 5)
  /-- DATA_90_9F, `1001xxxx` (R47). -/
  | data90_9F (x : BitVec 4)
  /-- DATA_88_8F, `10001xxx` (R47). -/
  | data88_8F (x : BitVec 3)
  /-- DATA.DISCARD (R81): what a data byte does while `LEN = 0`. -/
  | dataDiscard (d : Byte)
  /-- DATA.APPEND (R82): what a data byte does mid-frame, short of the width. -/
  | dataAppend (d : Byte)
  /-- DATA.COMPLETE (R83): what the last data byte of a frame does. -/
  | dataComplete (d : Byte)
  /-- FRAME3 (R49, R90): a complete Narrow frame, button bits and one pair. -/
  | frame3 (l m r : Bool) (x y : Byte)
  /-- FRAME5 (R50, R90): a complete Wide frame, button bits and two pairs. -/
  | frame5 (l m r : Bool) (x y u v : Byte)
  /-- BTN, `sssssLMR` (R91, R93): the button byte of a frame, bits 7:3 ignored. -/
  | btn (b : Byte)
  /-- MODE, `sssssLMR` (R94): the same byte read for the mode. -/
  | mode (b : Byte)
  /-- MOVE (R102): a pair in movement mode. -/
  | move (x y : Byte)
  /-- SCROLL (R103): a pair in scroll mode, `SCROLL_INV = 0`. -/
  | scroll (x y : Byte)
  /-- SCROLL.INV (R103): a pair in scroll mode, `SCROLL_INV = 1`. -/
  | scrollInv (x y : Byte)
  /-- PAIR.ZERO (R105): the pair (0x00, 0x00). -/
  | pairZero
deriving DecidableEq, Repr

end Sys2Proof
end

