-- ==== Sys2Proof/WellFormed.lean ====
section
/-! DEFINITION. Which operands each row of the table admits. -/

namespace Sys2Proof

open Machine

/-- The operand constraints of the rows: the data operations take a data byte (30_encoding.md R47,
41_feed_data.md R81 to R83), the payload bytes of a frame are data bytes (R49, R50), and a pair
operation that emits takes a pair that is not (0, 0) (R102, R103). SYNC and the five DATA patterns
admit every value of their fields, BTN and MODE every byte (R59). -/
def Instr.wellFormed : Instr → Bool
  | .sync _ _ _ => true
  | .data00_7F _ => true
  | .dataC0_FF _ => true
  | .dataA0_BF _ => true
  | .data90_9F _ => true
  | .data88_8F _ => true
  | .dataDiscard d => !isSync d
  | .dataAppend d => !isSync d
  | .dataComplete d => !isSync d
  | .frame3 _ _ _ x y => !isSync x && !isSync y
  | .frame5 _ _ _ x y u v => !isSync x && !isSync y && !isSync u && !isSync v
  | .btn _ => true
  | .mode _ => true
  | .move x y => !isZeroPair x y
  | .scroll x y => !isZeroPair x y
  | .scrollInv x y => !isZeroPair x y
  | .pairZero => true

end Sys2Proof
end

