-- ==== Sys2Proof/Decode.lean ====
section
/-! DEFINITION. The decoder (30_encoding.md R54) and, after it, the encoder, both from the encodings of
30_encoding.md R46 to R50 and the pair rows of the opcode table. -/

namespace Sys2Proof

open Machine

/-- Where in the decode of R54 a word stands, with the state that selects among rows of one encoding. -/
inductive Position where
  /-- A byte handed to `feed` (R54). -/
  | fed
  /-- A data byte, with the `LEN` and `WIDE` it meets (R80). -/
  | payload (len : Nat) (wide : Bool)
  /-- A complete frame, with `WIDE` (R53). -/
  | frame (wide : Bool)
  /-- Byte 0 of a complete frame, as BTN reads it (R91). -/
  | button
  /-- Byte 0 of a complete frame, as MODE reads it (R94). -/
  | mode
  /-- A sub-delta pair, with the mode and `SCROLL_INV` (R90, R103). -/
  | pair (scroll inv : Bool)
deriving DecidableEq, Repr

/-- Why a word is rejected at a position. Nothing is ever rejected at the position `fed` when it is one
byte (R58). -/
inductive Reject where
  /-- The number of bytes is not that of the position's format (R45). -/
  | wrongLength (n : Nat)
  /-- Byte 0 of a frame is not a sync byte (R49, R50). -/
  | frameStartNotSync
  /-- A byte in `0x80`..`0x87` stands where a data byte must stand (R47, R49, R50). -/
  | syncInPayload
deriving DecidableEq, Repr

/-- The decode of one fed byte (R46, R47, R54): the sync test comes first. -/
def decodeFed (b : Byte) : Instr :=
  if isSync b then .sync (b.getLsbD 2) (b.getLsbD 1) (b.getLsbD 0)
  else if b &&& 0x80 == 0x00 then .data00_7F (b.extractLsb' 0 7)
  else if b &&& 0xC0 == 0xC0 then .dataC0_FF (b.extractLsb' 0 6)
  else if b &&& 0xE0 == 0xA0 then .dataA0_BF (b.extractLsb' 0 5)
  else if b &&& 0xF0 == 0x90 then .data90_9F (b.extractLsb' 0 4)
  else .data88_8F (b.extractLsb' 0 3)

/-- Which operation a data byte performs (R80, in the order of R65's tests: empty, complete, else
pending; log 11). -/
def selectData (len : Nat) (wide : Bool) (d : Byte) : Instr :=
  if len == 0 then .dataDiscard d
  else if len + 1 == width wide then .dataComplete d
  else .dataAppend d

/-- Which operation a pair performs (R90: zero test, then the mode; R103: then `SCROLL_INV`). -/
def selectPair (scroll inv : Bool) (x y : Byte) : Instr :=
  if isZeroPair x y then .pairZero
  else if scroll then (if inv then .scrollInv x y else .scroll x y)
  else .move x y

/-- The decoder: total on any bytes at any position, rejecting by name. -/
def decode : Position → List Byte → Except Reject Instr
  | .fed, [b] => .ok (decodeFed b)
  | .payload len wide, [d] =>
    if isSync d then .error .syncInPayload else .ok (selectData len wide d)
  | .frame false, [b, x, y] =>
    if !isSync b then .error .frameStartNotSync
    else if isSync x || isSync y then .error .syncInPayload
    else .ok (.frame3 (b.getLsbD 2) (b.getLsbD 1) (b.getLsbD 0) x y)
  | .frame true, [b, x, y, u, v] =>
    if !isSync b then .error .frameStartNotSync
    else if isSync x || isSync y || isSync u || isSync v then .error .syncInPayload
    else .ok (.frame5 (b.getLsbD 2) (b.getLsbD 1) (b.getLsbD 0) x y u v)
  | .button, [b] => .ok (.btn b)
  | .mode, [b] => .ok (.mode b)
  | .pair scroll inv, [x, y] => .ok (selectPair scroll inv x y)
  | _, bs => .error (.wrongLength bs.length)

/-- The bytes of an instruction, in arrival order (R34), written from the rows' encodings. -/
def encode : Instr → List Byte
  | .sync l m r => [syncByte l m r]
  | .data00_7F x => [0b0#1 ++ x]
  | .dataC0_FF x => [0b11#2 ++ x]
  | .dataA0_BF x => [0b101#3 ++ x]
  | .data90_9F x => [0b1001#4 ++ x]
  | .data88_8F x => [0b10001#5 ++ x]
  | .dataDiscard d => [d]
  | .dataAppend d => [d]
  | .dataComplete d => [d]
  | .frame3 l m r x y => [syncByte l m r, x, y]
  | .frame5 l m r x y u v => [syncByte l m r, x, y, u, v]
  | .btn b => [b]
  | .mode b => [b]
  | .move x y => [x, y]
  | .scroll x y => [x, y]
  | .scrollInv x y => [x, y]
  | .pairZero => [0x00, 0x00]

/-- The positions an instruction is decoded at: the table's "condition" column (R54, R65, R90). -/
def Instr.standsAt (i : Instr) (p : Position) : Prop :=
  match i with
  | .sync _ _ _ => p = .fed
  | .data00_7F _ => p = .fed
  | .dataC0_FF _ => p = .fed
  | .dataA0_BF _ => p = .fed
  | .data90_9F _ => p = .fed
  | .data88_8F _ => p = .fed
  | .dataDiscard _ => ∃ w, p = .payload 0 w
  | .dataAppend _ => ∃ n w, p = .payload n w ∧ 1 ≤ n ∧ n + 1 ≠ width w
  | .dataComplete _ => ∃ n w, p = .payload n w ∧ 1 ≤ n ∧ n + 1 = width w
  | .frame3 _ _ _ _ _ => p = .frame false
  | .frame5 _ _ _ _ _ _ _ => p = .frame true
  | .btn _ => p = .button
  | .mode _ => p = .mode
  | .move _ _ => ∃ inv, p = .pair false inv
  | .scroll _ _ => p = .pair true false
  | .scrollInv _ _ => p = .pair true true
  | .pairZero => ∃ sc inv, p = .pair sc inv

/-- The byte of `w` whose lowest bit is bit `lo`. -/
def byteAt (w lo : Nat) : Byte := BitVec.ofNat 8 (w >>> lo)

/-- The bytes of a word as the opcode table numbers its bits: byte 0, the first to arrive, holds the
MOST significant bits (the table gives FRAME3 the fields L = bit 18, x = 15:8, y = 7:0; log 12). -/
def tableBytes : Nat → Nat → List Byte
  | 8, w => [byteAt w 0]
  | 16, w => [byteAt w 8, byteAt w 0]
  | 24, w => [byteAt w 16, byteAt w 8, byteAt w 0]
  | 40, w => [byteAt w 32, byteAt w 24, byteAt w 16, byteAt w 8, byteAt w 0]
  | _, _ => []

/-- The position a table word of a given width is decoded at when the width is all that is known
(log 12): a byte is a fed byte, a pair stands in movement mode, frames are told by their length. -/
def tablePosition : Nat → Position
  | 16 => .pair false false
  | 24 => .frame false
  | 40 => .frame true
  | _ => .fed

/-- The instruction the decoder reads from a table word of `nbits` bits. -/
def decodeTableWord (nbits w : Nat) : Option Instr :=
  match decode (tablePosition nbits) (tableBytes nbits w) with
  | .ok i => some i
  | .error _ => none

end Sys2Proof
end

