-- ==== Sys2Proof/Machine/Motion.lean ====
section
/-! DEFINITION. The pair operations MOVE, SCROLL, SCROLL.INV and PAIR.ZERO (43_interpret_motion.md R102 to
R105). Each has the effect of its row; which of them a pair runs is decided by `selectPair` (R90). -/

namespace Sys2Proof.Machine

/-- MOVE (R102): dx as it is, dy negated. -/
def emitMove (x y : Byte) (s : State) : State := s.emit (.move (plainField x) (negatedField y))

/-- SCROLL without inversion (R103): vertical from dy, horizontal from dx, both as they are. -/
def emitScroll (x y : Byte) (s : State) : State := s.emit (.scroll (plainField y) (plainField x))

/-- SCROLL with inversion (R103, R104): both components negated. -/
def emitScrollInv (x y : Byte) (s : State) : State :=
  s.emit (.scroll (negatedField y) (negatedField x))

/-- One turn of R90's loop over the pairs: the operation `selectPair` names. -/
def runPair (x y : Byte) (s : State) : State :=
  if isZeroPair x y then s
  else if s.scroll then (if s.cfg.scrollInv then emitScrollInv x y s else emitScroll x y s)
  else emitMove x y s

/-- The meaning of MOVE. -/
def execMove (x y : Byte) (s : State) : Host.Outcome State Fault Refusal := .next (emitMove x y s)

/-- The meaning of SCROLL. -/
def execScroll (x y : Byte) (s : State) : Host.Outcome State Fault Refusal := .next (emitScroll x y s)

/-- The meaning of SCROLL.INV. -/
def execScrollInv (x y : Byte) (s : State) : Host.Outcome State Fault Refusal :=
  .next (emitScrollInv x y s)

/-- The meaning of PAIR.ZERO (R105): nothing is emitted and nothing changes. -/
def execPairZero (s : State) : Host.Outcome State Fault Refusal := .next s

end Sys2Proof.Machine
end

