-- ==== Sys2Proof/Machine/Frame.lean ====
section
/-! DEFINITION. `Interpret` (42_interpret_buttons.md R90) and the frames FRAME3 and FRAME5. -/

namespace Sys2Proof.Machine

/-- The loop of R90 over the pairs of a frame, in frame order. -/
def runPairs : List (Byte × Byte) → State → State
  | [], s => s
  | (x, y) :: rest, s => runPairs rest (runPair x y s)

/-- `Interpret` (R90) of a frame given as its button byte and its pairs: BTN, MODE, then the pairs.
Total on all byte values in all positions (R59). -/
def interpret (btn : Byte) (pairs : List (Byte × Byte)) (s : State) : State :=
  runPairs pairs (selectMode btn (reportButtons btn s))

/-- The pairs of the frame that stands in `BUF` (R33, R100): one in Narrow, two in Wide. -/
def bufPairs (s : State) : List (Byte × Byte) :=
  if s.wide then [(s.buf[1], s.buf[2]), (s.buf[3], s.buf[4])] else [(s.buf[1], s.buf[2])]

/-- `Interpret(BUF[0 .. LEN-1], WIDE)` on a complete buffer (R65). -/
def interpretBuf (s : State) : State := interpret s.buf[0] (bufPairs s) s

/-- The meaning of FRAME3 (R49, R90; log 14). -/
def execFrame3 (l m r : Bool) (x y : Byte) (s : State) : Host.Outcome State Fault Refusal :=
  .next (interpret (syncByte l m r) [(x, y)] s)

/-- The meaning of FRAME5 (R50, R90; log 14). -/
def execFrame5 (l m r : Bool) (x y u v : Byte) (s : State) : Host.Outcome State Fault Refusal :=
  .next (interpret (syncByte l m r) [(x, y), (u, v)] s)

end Sys2Proof.Machine
end

