-- ==== Sys2Proof/Machine/Data.lean ====
section
/-! DEFINITION. The data operations (41_feed_data.md R80 to R83) and the five DATA patterns
(30_encoding.md R47). -/

namespace Sys2Proof.Machine

/-- `BUF[LEN] <- b; LEN <- LEN + 1` (R82): the index is `LEN` before the increment. -/
def appendByte (b : Byte) (s : State) : State := (s.writeBuf s.len b).setLen (s.len + 1)

/-- DATA.DISCARD (R81): the byte is counted and nothing else happens. -/
def discardByte (_b : Byte) (s : State) : State := s.countByte

/-- DATA.APPEND (R82): count, then append. -/
def appendData (b : Byte) (s : State) : State := appendByte b s.countByte

/-- DATA.COMPLETE (R83): count, append, interpret the buffer, clear it. -/
def completeData (b : Byte) (s : State) : State :=
  (interpretBuf (appendByte b s.countByte)).setLen 0

/-- What a data byte does when it is fed (R65 steps 3 and 4, R80): the operation `selectData` names. -/
def feedData (b : Byte) (s : State) : State :=
  if s.len == 0 then discardByte b s
  else if s.len + 1 == width s.wide then completeData b s
  else appendData b s

/-- The meaning of DATA_00_7F. -/
def execData00_7F (x : BitVec 7) (s : State) : Host.Outcome State Fault Refusal :=
  .next (feedData (0b0#1 ++ x) s)

/-- The meaning of DATA_C0_FF. -/
def execDataC0_FF (x : BitVec 6) (s : State) : Host.Outcome State Fault Refusal :=
  .next (feedData (0b11#2 ++ x) s)

/-- The meaning of DATA_A0_BF. -/
def execDataA0_BF (x : BitVec 5) (s : State) : Host.Outcome State Fault Refusal :=
  .next (feedData (0b101#3 ++ x) s)

/-- The meaning of DATA_90_9F. -/
def execData90_9F (x : BitVec 4) (s : State) : Host.Outcome State Fault Refusal :=
  .next (feedData (0b1001#4 ++ x) s)

/-- The meaning of DATA_88_8F. -/
def execData88_8F (x : BitVec 3) (s : State) : Host.Outcome State Fault Refusal :=
  .next (feedData (0b10001#5 ++ x) s)

/-- The meaning of DATA.DISCARD: the effect of R81, whose condition `LEN = 0` `selectData` tests (log 9). -/
def execDataDiscard (d : Byte) (s : State) : Host.Outcome State Fault Refusal :=
  .next (discardByte d s)

/-- The meaning of DATA.APPEND: the effect of R82, whose condition `selectData` tests (log 9). -/
def execDataAppend (d : Byte) (s : State) : Host.Outcome State Fault Refusal :=
  .next (appendData d s)

/-- The meaning of DATA.COMPLETE: the effect of R83, whose condition `selectData` tests (log 9). -/
def execDataComplete (d : Byte) (s : State) : Host.Outcome State Fault Refusal :=
  .next (completeData d s)

end Sys2Proof.Machine
end

