-- ==== Sys2Proof/Machine/Sync.lean ====
section
/-! DEFINITION. SYNC (40_feed_sync.md R65 step 2, R67 to R70). -/

namespace Sys2Proof.Machine

/-- Step 2a, the flush attempt (R67): a complete buffer is interpreted (no reachable state has one,
spec decision D21), an incomplete one is not; either way the buffer is then empty. -/
def flush (s : State) : State :=
  (if s.len == width s.wide then interpretBuf s else s).setLen 0

/-- Steps 2b and 2c (R68, R69): infer the dialect from the count, restart the buffer with the sync byte,
clear the count. -/
def openFrame (b : Byte) (s : State) : State :=
  ((((s.setWide (inferWide s.cnt)).writeBuf 0 b).setLen 1).setCnt 0)

/-- A sync byte when it is fed (R65): count, flush, open. -/
def feedSync (b : Byte) (s : State) : State := openFrame b (flush s.countByte)

/-- The meaning of SYNC. -/
def execSync (l m r : Bool) (s : State) : Host.Outcome State Fault Refusal :=
  .next (feedSync (syncByte l m r) s)

end Sys2Proof.Machine
end

