-- ==== Sys2Proof/Machine/Dispatch.lean ====
section
/-! DEFINITION. One arm per row of the opcode table. -/
namespace Sys2Proof.Machine

def exec (i : Instr) (s : State) : Host.Outcome State Fault Refusal :=
  match i with
  -- fed bytes (R46, R47)
  | .sync l m r => Sys2Proof.Machine.execSync l m r s
  | .data00_7F x => Sys2Proof.Machine.execData00_7F x s
  | .dataC0_FF x => Sys2Proof.Machine.execDataC0_FF x s
  | .dataA0_BF x => Sys2Proof.Machine.execDataA0_BF x s
  | .data90_9F x => Sys2Proof.Machine.execData90_9F x s
  | .data88_8F x => Sys2Proof.Machine.execData88_8F x s
  -- data operations (R81 to R83)
  | .dataDiscard d => Sys2Proof.Machine.execDataDiscard d s
  | .dataAppend d => Sys2Proof.Machine.execDataAppend d s
  | .dataComplete d => Sys2Proof.Machine.execDataComplete d s
  -- frames (R49, R50, R90)
  | .frame3 l m r x y => Sys2Proof.Machine.execFrame3 l m r x y s
  | .frame5 l m r x y u v => Sys2Proof.Machine.execFrame5 l m r x y u v s
  -- frame operations (R91 to R105)
  | .btn b => Sys2Proof.Machine.execBtn b s
  | .mode b => Sys2Proof.Machine.execMode b s
  | .move x y => Sys2Proof.Machine.execMove x y s
  | .scroll x y => Sys2Proof.Machine.execScroll x y s
  | .scrollInv x y => Sys2Proof.Machine.execScrollInv x y s
  | .pairZero => Sys2Proof.Machine.execPairZero s

end Sys2Proof.Machine
end

