-- ==== Sys2Proof/Machine/Fetch.lean ====
section
/-! DEFINITION. Taking the next thing the environment offers (20_memory.md R31), and placing a table word so
that the next step runs it. -/

namespace Sys2Proof.Machine

/-- The next thing offered and the state without it; `none` when nothing is offered. The block never
looks ahead and never pushes a byte back (R31). -/
def nextInput (s : State) : Option (Input × State) :=
  match s.input with
  | [] => none
  | a :: rest => some (a, s.setInput rest)

/-- Offer a byte before everything else. -/
def offer (b : Byte) (s : State) : State := s.setInput (.byte b :: s.input)

/-- A frame one byte short of complete: the bytes before the last stand in `BUF`, `CNT` is what the
feeds of them leave (10_state.md R17 (c)), and the last is offered. -/
def placeFrame (wide : Bool) (held : List Byte) (last : Byte) (s : State) : State :=
  offer last
    (((((held.zipIdx).foldl (fun t p => t.writeBuf p.2 p.1) s).setLen held.length).setCnt
      (held.length - 1)).setWide wide)

/-- The bytes of a table word (log 13). One byte is offered to `feed`. A frame stands in `BUF` but for
its last byte, which is offered, so that the next feed is the one that completes and runs it. A pair is
the payload of such a Narrow frame, whose button byte repeats the buttons last reported. -/
def placeWord (bs : List Byte) (s : State) : State :=
  match bs with
  | [b] => offer b s
  | [x, y] => placeFrame false [0x80 ||| (s.prevBtn &&& 0x07), x] y s
  | [b, x, y] => placeFrame false [b, x] y s
  | [b, x, y, u, v] => placeFrame true [b, x, y, u] v s
  | _ => s

end Sys2Proof.Machine
end

