-- ==== Sys2Proof/Machine/Step.lean ====
section
/-! DEFINITION. One step of the block, and where the host places a word. -/

namespace Sys2Proof.Machine

/-- One step (10_state.md R10, 60_exceptions.md R122): take the next thing offered. A byte is decoded and
executed as one atomic `feed` (20_memory.md R36); a restart is a reset (R136); with nothing offered the
block holds its state (60_exceptions.md R118, R128; log 16). -/
def step (s : State) : Host.Outcome State Fault Refusal :=
  match nextInput s with
  | none => .next s
  | some (.byte b, t) => exec (decodeFed b) t
  | some (.restart emu inv, t) => .next (restart emu inv t.input t)

/-- `s` with the table word placed so that the next step runs it (log 13). -/
def State.withFetchWord (s : State) (nbits w : Nat) : State := placeWord (tableBytes nbits w) s

end Sys2Proof.Machine
end

