-- ==== Sys2Proof/Machine/EventWord.lean ====
section
/-! DEFINITION. The optional 18-bit event word (30_encoding.md R57). No step uses it. -/

namespace Sys2Proof.Machine

/-- The mask R57 writes into field a of a ButtonChanged word. -/
def eventMask (c : Config) (id : ButtonId) : Byte := buttonMask c id

/-- `ev[17:16]` kind, `ev[15:8]` field a, `ev[7:0]` field b (R57). -/
def eventWord (c : Config) : Event → BitVec 18
  | .move dx dy => 0b00#2 ++ BitVec.ofInt 8 dx ++ BitVec.ofInt 8 dy
  | .scroll v h => 0b01#2 ++ BitVec.ofInt 8 v ++ BitVec.ofInt 8 h
  | .buttonChanged id p => 0b10#2 ++ eventMask c id ++ (if p then 0x01#8 else 0x00#8)

end Sys2Proof.Machine
end

