-- ==== Sys2Proof/Safety.lean ====
section
/-! DEFINITION. The terms claims are stated in: delivering bytes, the invariants of 10_state.md R17, which
states cannot be told apart (R19), the control states of 41_feed_data.md R85, and the rules R65 and R90 written a
second time over a list buffer (20_memory.md R37) and plain numbers, sharing no definition with the machine. -/

namespace Sys2Proof.Safety

open Machine

/-! ### Delivering bytes -/

/-- One step in which the transport delivers `b`. -/
def deliver (b : Byte) (s : State) : Host.Outcome State Fault Refusal :=
  step { s with input := .byte b :: s.input }

/-- The bytes delivered one after the other, left to right (R60). -/
def deliverAll : List Byte → State → Option State
  | [], s => some s
  | b :: bs, s =>
    match deliver b s with
    | .next t => deliverAll bs t
    | .fault _ => none
    | .refused _ => none

/-- `NFRAME(btn, dx, dy)` (R60). -/
def nframe (btn dx dy : Byte) : List Byte := [btn, dx, dy]

/-- `WFRAME(btn, dx1, dy1, dx2, dy2)` (R60). -/
def wframe (btn dx1 dy1 dx2 dy2 : Byte) : List Byte := [btn, dx1, dy1, dx2, dy2]

/-! ### The rules a second time -/

namespace Rules

/-- A sync byte is one of `0x80`..`0x87` (R46). -/
abbrev SyncByte (b : Byte) : Prop := 0x80 ≤ b.toNat ∧ b.toNat ≤ 0x87

/-- A data byte is any other (R47). -/
abbrev DataByte (b : Byte) : Prop := ¬ SyncByte b

/-- The button byte with given bits L, M, R (R48). -/
def buttonByte (l m r : Bool) : Byte :=
  BitVec.ofNat 8 (0x80 + (if l then 4 else 0) + (if m then 2 else 0) + (if r then 1 else 0))

/-- Frame width (R13). -/
def frameWidth (wide : Bool) : Nat := if wide then 5 else 3

/-- The count with one more byte (R66), under `CNT_MODULUS` (R8). -/
def counted (c : Config) (cnt : Nat) : Nat :=
  match c.cntModulus with
  | none => cnt + 1
  | some m => (cnt + 1) % m

/-- The bit of the button byte that belongs to a button (R8, R48). -/
def buttonBit (c : Config) : ButtonId → Nat
  | .left => 2
  | .middle => if c.maskOrder = .middleBit1 then 1 else 0
  | .right => if c.maskOrder = .middleBit1 then 0 else 1

/-- Pressed is a clear bit (R48). -/
def pressed (c : Config) (id : ButtonId) (b : Byte) : Bool := !b.toNat.testBit (buttonBit c id)

/-- The table of R91 for one button. -/
def buttonEvent (c : Config) (id : ButtonId) (prev b : Byte) : List Event :=
  if pressed c id b = pressed c id prev then [] else [.buttonChanged id (pressed c id b)]

/-- The button events of one frame, Left, Middle, Right (R91). -/
def buttonEvents (c : Config) (prev b : Byte) : List Event :=
  buttonEvent c .left prev b ++ buttonEvent c .middle prev b ++ buttonEvent c .right prev b

/-- `sext_8` of a number below 256 (R106 (b)). -/
def signed (n : Nat) : Int := (n : Int) - if n < 128 then 0 else 256

/-- `(256 - v) mod 256` (R106 (a)). -/
def negated (v : Byte) : Nat := (256 - v.toNat) % 256

/-- The mode of a frame (R94). -/
def scrolls (c : Config) (b : Byte) : Bool := c.scrollEmu && pressed c .middle b

/-- The events of one pair of a frame with button byte `b` (R102, R103, R105). -/
def pairEvents (c : Config) (b : Byte) (p : Byte × Byte) : List Event :=
  if p.1.toNat = 0 ∧ p.2.toNat = 0 then []
  else if scrolls c b = true then
    if c.scrollInv = true then [.scroll (signed (negated p.2)) (signed (negated p.1))]
    else [.scroll (signed p.2.toNat) (signed p.1.toNat)]
  else [.move (signed p.1.toNat) (signed (negated p.2))]

/-- The events of a complete frame, in the order of R96. -/
def frameEvents (c : Config) (prev b : Byte) (pairs : List (Byte × Byte)) : List Event :=
  buttonEvents c prev b ++ (pairs.map (pairEvents c b)).flatten

/-- The pairs of a payload (R100): bytes two by two. -/
def pairsOf : List Byte → List (Byte × Byte)
  | x :: y :: rest => (x, y) :: pairsOf rest
  | _ => []

/-- The decoder with its buffer as the list of the bytes it holds (R37). -/
structure Decoder where
  buf  : List Byte
  cnt  : Nat
  wide : Bool
  prev : Byte
deriving DecidableEq, Repr

/-- `Interpret` of the whole buffer (R90): the events and the new `PREV_BTN`. -/
def interpretList (c : Config) (prev : Byte) : List Byte → Byte × List Event
  | [] => (prev, [])
  | b :: payload => (b, frameEvents c prev b (pairsOf payload))

/-- `feed` (R65) over the list form. -/
def feed (c : Config) (d : Decoder) (b : Byte) : Decoder × List Event :=
  let n := counted c d.cnt
  if SyncByte b then
    let (prev, ev) :=
      if d.buf.length = frameWidth d.wide then interpretList c d.prev d.buf else (d.prev, [])
    ({ buf := [b], cnt := 0, wide := decide (n = 5), prev := prev }, ev)
  else if d.buf = [] then ({ d with cnt := n }, [])
  else if (d.buf ++ [b]).length = frameWidth d.wide then
    let (prev, ev) := interpretList c d.prev (d.buf ++ [b])
    ({ d with buf := [], cnt := n, prev := prev }, ev)
  else ({ d with buf := d.buf ++ [b], cnt := n }, [])

/-- The events of whole frames one after the other, each a button byte and its payload, starting from a
stored button byte. -/
def sessionEvents (c : Config) : Byte → List (Byte × List Byte) → List Event
  | _, [] => []
  | prev, (b, payload) :: rest =>
    frameEvents c prev b (pairsOf payload) ++ sessionEvents c b rest

/-- The level a button is at after some events that start from level `p`, or `none` if some event
repeats the level it is at: the alternation of R92. -/
def follow (id : ButtonId) : Bool → List Event → Option Bool
  | p, [] => some p
  | p, .buttonChanged j q :: rest =>
    if j = id then (if q = p then none else follow id q rest) else follow id p rest
  | p, .move _ _ :: rest => follow id p rest
  | p, .scroll _ _ :: rest => follow id p rest

/-- The value sets of R107 for an event produced by `feed` under a configuration. -/
def reachableEvent (c : Config) : Event → Prop
  | .move dx dy => (-120 ≤ dx ∧ dx ≤ 127) ∧ (-127 ≤ dy ∧ dy ≤ 120) ∧ ¬ (dx = 0 ∧ dy = 0)
  | .scroll v h =>
    (if c.scrollInv = true then (-127 ≤ v ∧ v ≤ 120) ∧ (-127 ≤ h ∧ h ≤ 120)
     else (-120 ≤ v ∧ v ≤ 127) ∧ (-120 ≤ h ∧ h ≤ 127)) ∧ ¬ (v = 0 ∧ h = 0)
  | .buttonChanged _ _ => True

end Rules

/-- The list form of a state: the entries of `BUF` below `LEN` (R37). -/
def listForm (s : State) : Rules.Decoder :=
  { buf := s.buf.toList.take s.len, cnt := s.cnt, wide := s.wide, prev := s.prevBtn }

/-! ### Invariants -/

/-- The invariants (a), (b), (c) of R17 on reachable states. R17 states (c) for the unbounded counter; a
counter that wraps at one of the values R8 admits is as good, since no frame is longer than 5. -/
structure BufferInv (s : State) : Prop where
  lenBound  : s.len < Rules.frameWidth s.wide
  startSync : 1 ≤ s.len → Rules.SyncByte s.buf[0]
  restData  : ∀ i, (h : i < 5) → 1 ≤ i → i < s.len → Rules.DataByte s.buf[i]
  counted   : s.cfg.Legal → 1 ≤ s.len → s.cnt = s.len - 1

/-- Two states that differ only where R19 says the difference cannot be observed: (a) entries of `BUF`
from `LEN` on, (b) bits 7:3 of `PREV_BTN`, (c) `WIDE` while `LEN = 0`, (d) the excess of `CNT` over 5
(with the unbounded counter), and the model's own variable `scroll`. -/
structure Alike (s t : State) : Prop where
  len   : s.len = t.len
  held  : ∀ i, (h : i < 5) → i < s.len → s.buf[i] = t.buf[i]
  prev  : s.prevBtn &&& 0x07 = t.prevBtn &&& 0x07
  wide  : 1 ≤ s.len → s.wide = t.wide
  cnt   : s.cnt = t.cnt ∨ (s.cfg.cntModulus = none ∧ 5 ≤ s.cnt ∧ 5 ≤ t.cnt)
  cfg   : s.cfg = t.cfg
  input : s.input = t.input

/-- The named control states of R85. -/
inductive Control where
  | idle | n1 | n2 | w1 | w2 | w3 | w4
deriving DecidableEq, Repr

/-- The control state of (`WIDE`, `LEN`) (R85). -/
def controlState (s : State) : Option Control :=
  match s.wide, s.len with
  | _, 0 => some .idle
  | false, 1 => some .n1
  | false, 2 => some .n2
  | true, 1 => some .w1
  | true, 2 => some .w2
  | true, 3 => some .w3
  | true, 4 => some .w4
  | _, _ => none

/-- The column "on DATA" of R85's table. -/
def onData : Control → Control
  | .idle => .idle
  | .n1 => .n2
  | .n2 => .idle
  | .w1 => .w2
  | .w2 => .w3
  | .w3 => .w4
  | .w4 => .idle

/-- The columns "on SYNC" of R85's table; `five` says whether `c + 1 = 5`. -/
def onSync (five : Bool) : Control → Control
  | .idle => if five then .w1 else .n1
  | _ => .n1

end Sys2Proof.Safety
end

