-- ==== Sys2Proof/Certificates/Slice0/Obligations.lean ====
section
/-! DEFINITION. The statements for the provers. `deliver` and `deliverAll` are steps in which the transport
delivers bytes; `Rules` is the rules' arithmetic written a second time on plain numbers (Safety.lean). Every
statement holds for every configuration, the open parameters of R8 among it, unless it names one. The fields
`input`, `out` and `scroll` are the model's own (logs 1, 2, 3). -/

open Sys2Proof Sys2Proof.Machine Sys2Proof.Safety

/-! ### Decoding and stepping -/

/-- A byte that is offered is decoded and executed, on the state without that byte (R54); every byte
decodes to a well-formed instruction (R58). Nothing is added around exec. -/
def Obligations.StepRunsTheDecodedByte : Prop :=
  ∀ (s : State) (b : Byte) (rest : List Input), s.input = .byte b :: rest →
    (∀ i, decode .fed [b] = .ok i → step s = exec i { s with input := rest }) ∧
    (∃ i, decode .fed [b] = .ok i ∧ i.wellFormed = true)

/-- With nothing offered the block holds its state (R118, R128). -/
def Obligations.StepHoldsWithNothingOffered : Prop :=
  ∀ s : State, s.input = [] → step s = .next s

/-- No step and no operation ever stops (R58, R115). -/
def Obligations.NothingEverStops : Prop :=
  (∀ s : State, ∃ t, step s = .next t) ∧ (∀ (i : Instr) (s : State), ∃ t, exec i s = .next t)

/-- Words written out from the encodings of R46 to R50 decode to the rows they stand for. -/
def Obligations.WrittenWordsDecode : Prop :=
  decode .fed [0b10000101#8] = .ok (.sync true false true) ∧
  decode .fed [0b01111110#8] = .ok (.data00_7F 0b1111110) ∧
  decode .fed [0b11111110#8] = .ok (.dataC0_FF 0b111110) ∧
  decode .fed [0b10110001#8] = .ok (.dataA0_BF 0b10001) ∧
  decode .fed [0b10010110#8] = .ok (.data90_9F 0b0110) ∧
  decode .fed [0b10001011#8] = .ok (.data88_8F 0b011) ∧
  decode (.frame false) [0b10000011#8, 0b00000101#8, 0b11111110#8] =
    .ok (.frame3 false true true 0x05 0xFE) ∧
  decode (.frame true) [0b10000110#8, 0x01#8, 0xFE#8, 0x03#8, 0xFC#8] =
    .ok (.frame5 true true false 0x01 0xFE 0x03 0xFC)

/-- The six rows of R47 partition the 256 byte values by the ranges of its table. -/
def Obligations.FedBytesArePartitioned : Prop :=
  ∀ b : Byte,
    ((∃ l m r, decodeFed b = .sync l m r) ↔ 0x80 ≤ b.toNat ∧ b.toNat ≤ 0x87) ∧
    ((∃ x, decodeFed b = .data00_7F x) ↔ b.toNat ≤ 0x7F) ∧
    ((∃ x, decodeFed b = .dataC0_FF x) ↔ 0xC0 ≤ b.toNat) ∧
    ((∃ x, decodeFed b = .dataA0_BF x) ↔ 0xA0 ≤ b.toNat ∧ b.toNat ≤ 0xBF) ∧
    ((∃ x, decodeFed b = .data90_9F x) ↔ 0x90 ≤ b.toNat ∧ b.toNat ≤ 0x9F) ∧
    ((∃ x, decodeFed b = .data88_8F x) ↔ 0x88 ≤ b.toNat ∧ b.toNat ≤ 0x8F)

/-- Decoding an encoded well-formed instruction, at any position its row's condition allows, gives the
instruction back. -/
def Obligations.DecodeOfEncode : Prop :=
  ∀ (i : Instr) (p : Position), i.wellFormed = true → i.standsAt p → decode p (encode i) = .ok i

/-- Whatever the decoder accepts at a position is the encoding of the instruction it reads, and that
instruction is well formed and stands at that position. -/
def Obligations.EncodeOfDecode : Prop :=
  ∀ (p : Position) (bs : List Byte) (i : Instr), decode p bs = .ok i →
    encode i = bs ∧ i.wellFormed = true ∧ i.standsAt p

/-- A frame placed as a table word is the frame the next step runs: the same events, stored buttons and
mode as the frame row's own effect, and no partial frame is left. Placing is the model's choice (log 13). -/
def Obligations.PlacedFrameIsRun : Prop :=
  ∀ (s : State) (n w : Nat) (i : Instr), (n = 24 ∨ n = 40) → decodeTableWord n w = some i →
    ∃ t u, step (s.withFetchWord n w) = .next t ∧ exec i s = .next u ∧
      t.out = u.out ∧ t.prevBtn = u.prevBtn ∧ t.scroll = u.scroll ∧ t.len = 0 ∧ t.input = s.input

/-! ### SYNC -/

/-- R68, R69, R70 in every state whose buffer is not complete (every reachable one, R17 (a)): the dialect
is Wide exactly when the count with this byte is 5, the buffer holds this byte only, the count is cleared,
no event, everything else unchanged. -/
def Obligations.SyncOpensFrame : Prop :=
  ∀ (l m r : Bool) (s : State), s.len < Rules.frameWidth s.wide →
    ∃ t, exec (.sync l m r) s = .next t ∧
      t.wide = decide (Rules.counted s.cfg s.cnt = 5) ∧
      t.buf[0] = Rules.buttonByte l m r ∧
      (∀ i, (h : i < 5) → i ≠ 0 → t.buf[i] = s.buf[i]) ∧
      t.len = 1 ∧ t.cnt = 0 ∧ t.out = s.out ∧ t.prevBtn = s.prevBtn ∧ t.cfg = s.cfg ∧
      t.scroll = s.scroll ∧ t.input = s.input

/-- R67 in every state: a complete buffer is interpreted and its events emitted before the frame is opened;
otherwise nothing is emitted and `PREV_BTN` is not touched; either way the frame is opened as R68 and R69
say; and no state that meets R17 has a complete buffer (the arm is the spec's decision, log 22). -/
def Obligations.SyncFlushesBuffer : Prop :=
  ∀ (l m r : Bool) (s : State),
    let opened (t : State) : Prop :=
      t.wide = decide (Rules.counted s.cfg s.cnt = 5) ∧ t.buf[0] = Rules.buttonByte l m r ∧
      (∀ i, (h : i < 5) → i ≠ 0 → t.buf[i] = s.buf[i]) ∧
      t.len = 1 ∧ t.cnt = 0 ∧ t.cfg = s.cfg ∧ t.input = s.input
    (s.len = Rules.frameWidth s.wide → ∃ t, exec (.sync l m r) s = .next t ∧ opened t ∧
      t.out = s.out ++ Rules.frameEvents s.cfg s.prevBtn s.buf[0]
        (if s.wide then [(s.buf[1], s.buf[2]), (s.buf[3], s.buf[4])] else [(s.buf[1], s.buf[2])]) ∧
      t.prevBtn = s.buf[0] ∧ t.scroll = Rules.scrolls s.cfg s.buf[0]) ∧
    (s.len ≠ Rules.frameWidth s.wide → ∃ t, exec (.sync l m r) s = .next t ∧ opened t ∧
      t.out = s.out ∧ t.prevBtn = s.prevBtn ∧ t.scroll = s.scroll) ∧
    (BufferInv s → s.len ≠ Rules.frameWidth s.wide)

/-- R72 (a) and (b): with the unbounded counter a sync byte mid-frame selects Narrow, and one that selects
Wide met an empty buffer and a count of 4. -/
def Obligations.MidFrameSyncSelectsNarrow : Prop :=
  ∀ (s : State) (b : Byte), BufferInv s → s.cfg.cntModulus = none → Rules.SyncByte b →
    ∃ t, deliver b s = .next t ∧
      (1 ≤ s.len → t.wide = false) ∧ (t.wide = true → s.len = 0 ∧ s.cnt = 4)

/-- R72 (c), R138 (a): from construction, data bytes before the first sync byte emit nothing, and make it
select Wide exactly when there are four of them. -/
def Obligations.LeadingBytesChooseFirstDialect : Prop :=
  ∀ (c : Config) (ds : List Byte) (b : Byte), c.cntModulus = none →
    (∀ d ∈ ds, Rules.DataByte d) → Rules.SyncByte b →
    ∃ t, deliverAll (ds ++ [b]) (State.construct c) = some t ∧ t.out = [] ∧
      (t.wide = true ↔ ds.length = 4)

/-- R73: two sync bytes in a row, from any state that meets R17 (a): no event from either, the second is
the start of the pending frame, and that frame is Narrow. -/
def Obligations.SyncAfterSyncDropsFrame : Prop :=
  ∀ (s : State) (b₁ b₂ : Byte), s.len < Rules.frameWidth s.wide → Rules.SyncByte b₁ →
    Rules.SyncByte b₂ →
    ∃ t, deliverAll [b₁, b₂] s = some t ∧ t.out = s.out ∧ t.prevBtn = s.prevBtn ∧ t.len = 1 ∧
      t.buf[0] = b₂ ∧ t.cnt = 0 ∧ t.wide = false

/-- R74, in every state: a sync byte becomes the start of the buffer and is not stored elsewhere, whatever
`LEN` is; a data byte never becomes the start of a frame. -/
def Obligations.SyncTestComesFirst : Prop :=
  ∀ (s : State) (b : Byte), ∃ t, deliver b s = .next t ∧
    (Rules.SyncByte b →
      t.len = 1 ∧ t.buf[0] = b ∧ ∀ i, (h : i < 5) → i ≠ 0 → t.buf[i] = s.buf[i]) ∧
    (Rules.DataByte b → t.buf[0] = s.buf[0] ∧ (s.len = 0 → t.len = 0))

/-! ### Data bytes -/

/-- R81: with an empty buffer a data byte is counted and nothing else changes; its value has no influence. -/
def Obligations.DiscardCountsOnly : Prop :=
  ∀ (d : Byte) (s : State), Rules.DataByte d → s.len = 0 →
    (∃ t, exec (.dataDiscard d) s = .next t ∧ t.cnt = Rules.counted s.cfg s.cnt ∧
      t.buf = s.buf ∧ t.len = s.len ∧ t.wide = s.wide ∧ t.prevBtn = s.prevBtn ∧ t.cfg = s.cfg ∧
      t.scroll = s.scroll ∧ t.input = s.input ∧ t.out = s.out) ∧
    (∀ d', Rules.DataByte d' → exec (.dataDiscard d') s = exec (.dataDiscard d) s)

/-- R82: mid-frame, short of the width, a data byte is counted and appended; no event, everything else
unchanged. -/
def Obligations.AppendStoresByte : Prop :=
  ∀ (d : Byte) (s : State), Rules.DataByte d → 1 ≤ s.len →
    s.len + 1 < Rules.frameWidth s.wide →
    ∃ t, exec (.dataAppend d) s = .next t ∧ t.cnt = Rules.counted s.cfg s.cnt ∧
      t.len = s.len + 1 ∧
      (∀ i, (h : i < 5) → t.buf[i] = if i = s.len then d else s.buf[i]) ∧
      t.wide = s.wide ∧ t.prevBtn = s.prevBtn ∧ t.cfg = s.cfg ∧ t.scroll = s.scroll ∧
      t.input = s.input ∧ t.out = s.out

/-- R83: the last byte of a frame is counted and stored, the frame's events are emitted in the order of
R96 (log 21), `PREV_BTN` takes the button byte, the buffer is empty, `WIDE` and everything else unchanged. -/
def Obligations.CompleteInterpretsFrame : Prop :=
  ∀ (d : Byte) (s : State), Rules.DataByte d → 1 ≤ s.len →
    s.len + 1 = Rules.frameWidth s.wide →
    ∃ t, exec (.dataComplete d) s = .next t ∧ t.cnt = Rules.counted s.cfg s.cnt ∧ t.len = 0 ∧
      (∀ i, (h : i < 5) → t.buf[i] = if i = s.len then d else s.buf[i]) ∧
      t.prevBtn = s.buf[0] ∧
      t.out = s.out ++ Rules.frameEvents s.cfg s.prevBtn s.buf[0]
        (if s.wide then [(s.buf[1], s.buf[2]), (s.buf[3], d)] else [(s.buf[1], d)]) ∧
      t.scroll = Rules.scrolls s.cfg s.buf[0] ∧
      t.wide = s.wide ∧ t.cfg = s.cfg ∧ t.input = s.input

/-- R83 over R90: in a state that meets R17, the completing byte runs the frame row that the buffer with
this byte decodes to, and then the buffer is empty. -/
def Obligations.CompleteRunsFrameRow : Prop :=
  ∀ (d : Byte) (s : State), BufferInv s → Rules.DataByte d → 1 ≤ s.len →
    s.len + 1 = Rules.frameWidth s.wide →
    ∃ f u, decode (.frame s.wide) (s.buf.toList.take s.len ++ [d]) = .ok f ∧
      exec f { s with cnt := Rules.counted s.cfg s.cnt, buf := s.buf.setIfInBounds s.len d,
                      len := s.len + 1 } = .next u ∧
      exec (.dataComplete d) s = .next { u with len := 0 }

/-- R80 for each of the five DATA rows, every value of their fields and every state that meets R17 (a): the
row runs exactly the operation its condition on the state selects, and completes. -/
def Obligations.DataRowsRunSelectedOperation : Prop :=
  ∀ s : State, s.len < Rules.frameWidth s.wide →
    let runs (i : Instr) (b : Byte) : Prop :=
      Rules.DataByte b ∧ (∃ t, exec i s = .next t) ∧
      (s.len = 0 → exec i s = exec (.dataDiscard b) s) ∧
      (1 ≤ s.len → s.len + 1 < Rules.frameWidth s.wide → exec i s = exec (.dataAppend b) s) ∧
      (1 ≤ s.len → s.len + 1 = Rules.frameWidth s.wide → exec i s = exec (.dataComplete b) s)
    (∀ x : BitVec 7, runs (.data00_7F x) (BitVec.ofNat 8 x.toNat)) ∧
    (∀ x : BitVec 6, runs (.dataC0_FF x) (BitVec.ofNat 8 (0xC0 + x.toNat))) ∧
    (∀ x : BitVec 5, runs (.dataA0_BF x) (BitVec.ofNat 8 (0xA0 + x.toNat))) ∧
    (∀ x : BitVec 4, runs (.data90_9F x) (BitVec.ofNat 8 (0x90 + x.toNat))) ∧
    (∀ x : BitVec 3, runs (.data88_8F x) (BitVec.ofNat 8 (0x88 + x.toNat)))

/-! ### Frames -/

/-- R90: a frame row is BTN, then MODE on the same byte, then for each pair in frame order the row the pair
decodes to in the mode just selected. -/
def Obligations.FrameRunsItsOperations : Prop :=
  ∀ (l m r : Bool) (s : State),
    let b := Rules.buttonByte l m r
    let pair (x y : Byte) (u v : State) : Prop :=
      ∃ p, decode (.pair u.scroll u.cfg.scrollInv) [x, y] = .ok p ∧ exec p u = .next v
    ∃ s₁ s₂, exec (.btn b) s = .next s₁ ∧ exec (.mode b) s₁ = .next s₂ ∧
      (∀ x y, ∃ s₃, pair x y s₂ s₃ ∧ exec (.frame3 l m r x y) s = .next s₃) ∧
      (∀ x y u v, ∃ s₃ s₄, pair x y s₂ s₃ ∧ pair u v s₃ s₄ ∧
        exec (.frame5 l m r x y u v) s = .next s₄)

/-- R90 and R96 (the order is log 21's) for the frame rows in every state: the button events, then the event of each pair that is
not (0, 0), appended to the output; `PREV_BTN` takes the button byte; nothing but the output, `PREV_BTN`
and the mode changes. -/
def Obligations.FrameEmitsItsEvents : Prop :=
  ∀ (l m r : Bool) (s : State),
    let b := Rules.buttonByte l m r
    let runs (i : Instr) (pairs : List (Byte × Byte)) : Prop :=
      ∃ t, exec i s = .next t ∧ t.out = s.out ++ Rules.frameEvents s.cfg s.prevBtn b pairs ∧
        t.prevBtn = b ∧ t.scroll = Rules.scrolls s.cfg b ∧ t.buf = s.buf ∧ t.len = s.len ∧
        t.cnt = s.cnt ∧ t.wide = s.wide ∧ t.cfg = s.cfg ∧ t.input = s.input
    (∀ x y, runs (.frame3 l m r x y) [(x, y)]) ∧
    (∀ x y u v, runs (.frame5 l m r x y u v) [(x, y), (u, v)])

/-! ### Buttons and mode -/

/-- R91 and R93 for every byte (R59): the events of R91's table in the order Left, Middle, Right (log 21), the whole
byte stored, everything else unchanged. -/
def Obligations.ButtonsReportChanges : Prop :=
  ∀ (b : Byte) (s : State), ∃ t, exec (.btn b) s = .next t ∧
    t.out = s.out ++ Rules.buttonEvents s.cfg s.prevBtn b ∧ t.prevBtn = b ∧
    t.buf = s.buf ∧ t.len = s.len ∧ t.cnt = s.cnt ∧ t.wide = s.wide ∧ t.cfg = s.cfg ∧
    t.scroll = s.scroll ∧ t.input = s.input

/-- R92, first part: the same frame a second time emits its pair events again and no button event. -/
def Obligations.RepeatedFrameReportsNoButton : Prop :=
  ∀ (l m r : Bool) (s : State),
    let b := Rules.buttonByte l m r
    let twice (i : Instr) (pairs : List (Byte × Byte)) : Prop :=
      ∃ t u, exec i s = .next t ∧ exec i t = .next u ∧
        u.out = t.out ++ (pairs.map (Rules.pairEvents s.cfg b)).flatten ∧
        ∀ e ∈ (pairs.map (Rules.pairEvents s.cfg b)).flatten, ∀ id p, e ≠ .buttonChanged id p
    (∀ x y, twice (.frame3 l m r x y) [(x, y)]) ∧
    (∀ x y u v, twice (.frame5 l m r x y u v) [(x, y), (u, v)])

/-- R92, second part, over every stream of bytes: per button the events alternate, beginning from the level
`PREV_BTN` holds before the stream and ending at the level it holds after; and construction leaves every
button released. -/
def Obligations.ButtonEventsAlternate : Prop :=
  (∀ (bs : List Byte) (s : State) (id : ButtonId), ∃ t evs, deliverAll bs s = some t ∧
    t.out = s.out ++ evs ∧
    Rules.follow id (Rules.pressed s.cfg id s.prevBtn) evs =
      some (Rules.pressed t.cfg id t.prevBtn)) ∧
  (∀ (c : Config) (id : ButtonId), Rules.pressed c id (State.construct c).prevBtn = false)

/-- R93, R145: in a state that meets R17, delivering a byte changes `PREV_BTN` or emits an event only when
it completes a frame, and then `PREV_BTN` is that frame's button byte. -/
def Obligations.ButtonsStoredOnCompletionOnly : Prop :=
  ∀ (s : State) (b : Byte), BufferInv s → ∃ t, deliver b s = .next t ∧
    (Rules.DataByte b ∧ 1 ≤ s.len ∧ s.len + 1 = Rules.frameWidth s.wide → t.prevBtn = s.buf[0]) ∧
    (¬ (Rules.DataByte b ∧ 1 ≤ s.len ∧ s.len + 1 = Rules.frameWidth s.wide) →
      t.prevBtn = s.prevBtn ∧ t.out = s.out)

/-- R94's truth table for every byte: scroll exactly when emulation is on and Middle is pressed in this
byte; everything else unchanged. The register `scroll` is the model's (log 3). -/
def Obligations.ModeSelectsScroll : Prop :=
  ∀ (b : Byte) (s : State), ∃ t, exec (.mode b) s = .next t ∧
    (t.scroll = true ↔ s.cfg.scrollEmu = true ∧
      b.toNat.testBit (Rules.buttonBit s.cfg .middle) = false) ∧
    t.buf = s.buf ∧ t.len = s.len ∧ t.cnt = s.cnt ∧ t.wide = s.wide ∧ t.prevBtn = s.prevBtn ∧
    t.cfg = s.cfg ∧ t.input = s.input ∧ t.out = s.out

/-! ### Pairs -/

/-- R102: a pair that is not (0, 0) in movement mode emits one Move, dx as it is and dy negated, and changes
nothing else. -/
def Obligations.MoveNegatesDy : Prop :=
  ∀ (x y : Byte) (s : State), ¬ (x.toNat = 0 ∧ y.toNat = 0) → s.scroll = false →
    ∃ t, exec (.move x y) s = .next t ∧
      t.out = s.out ++ [.move (Rules.signed x.toNat) (Rules.signed ((0x100 - y.toNat) % 256))] ∧
      t.buf = s.buf ∧ t.len = s.len ∧ t.cnt = s.cnt ∧ t.wide = s.wide ∧ t.prevBtn = s.prevBtn ∧
      t.cfg = s.cfg ∧ t.scroll = s.scroll ∧ t.input = s.input

/-- R103, R104: a pair that is not (0, 0) in scroll mode emits one Scroll, vertical from dy and horizontal
from dx, both as they are without inversion and both negated with it, and changes nothing else. -/
def Obligations.ScrollSwapsFields : Prop :=
  ∀ (x y : Byte) (s : State), ¬ (x.toNat = 0 ∧ y.toNat = 0) → s.scroll = true →
    let emits (i : Instr) (e : Event) : Prop :=
      ∃ t, exec i s = .next t ∧ t.out = s.out ++ [e] ∧
        t.buf = s.buf ∧ t.len = s.len ∧ t.cnt = s.cnt ∧ t.wide = s.wide ∧
        t.prevBtn = s.prevBtn ∧ t.cfg = s.cfg ∧ t.scroll = s.scroll ∧ t.input = s.input
    (s.cfg.scrollInv = false →
      emits (.scroll x y) (.scroll (Rules.signed y.toNat) (Rules.signed x.toNat))) ∧
    (s.cfg.scrollInv = true →
      emits (.scrollInv x y)
        (.scroll (Rules.signed ((0x100 - y.toNat) % 256)) (Rules.signed ((0x100 - x.toNat) % 256))))

/-- R105, R52: in either mode and under either inversion the decoder reads PAIR.ZERO exactly when both raw
bytes are zero, and PAIR.ZERO changes nothing. -/
def Obligations.ZeroPairEmitsNothing : Prop :=
  (∀ (scroll inv : Bool) (x y : Byte),
    decode (.pair scroll inv) [x, y] = .ok .pairZero ↔ x.toNat = 0 ∧ y.toNat = 0) ∧
  (∀ s : State, exec .pairZero s = .next s)

/-- R106 (a) and (b): the laws of `Neg8` and `sext_8`. -/
def Obligations.NegationLaws : Prop :=
  ∀ v : Byte,
    (neg8 v).toNat = (256 - v.toNat) % 256 ∧ neg8 (neg8 v) = v ∧
    sext8 v = (if v.toNat < 128 then (v.toNat : Int) else v.toNat - 256) ∧
    (v.toNat ≠ 0x80 → sext8 (neg8 v) = - sext8 v) ∧
    (v.toNat = 0x80 → sext8 (neg8 v) = -128)

/-! ### Reset -/

/-- R18: what construction leaves, for the state the spec names. The contents of `BUF` are not stated here
(R18 leaves them open, log 4); `State.reset` is construction under the configuration of logs 5, 6, 7. -/
def Obligations.ConstructionValues : Prop :=
  (∀ c : Config, (State.construct c).len = 0 ∧ (State.construct c).cnt = 0 ∧
    (State.construct c).wide = false ∧ (State.construct c).prevBtn = 0xFF ∧
    (State.construct c).cfg = c ∧ (State.construct c).out = []) ∧
  State.reset = State.construct
    { scrollEmu := false, scrollInv := false, maskOrder := .middleBit1, cntModulus := none }

/-- R135, R136: a restart between two feeds gives the values of R18 whatever the state was, latches the two
configuration inputs and emits nothing. How it is offered, and that the output so far stays, is the model's
choice (log 15). -/
def Obligations.RestartIsReset : Prop :=
  ∀ (s : State) (emu inv : Bool) (rest : List Input), s.input = .restart emu inv :: rest →
    ∃ t, step s = .next t ∧ t.len = 0 ∧ t.cnt = 0 ∧ t.wide = false ∧ t.prevBtn = 0xFF ∧
      t.cfg.scrollEmu = emu ∧ t.cfg.scrollInv = inv ∧ t.cfg.maskOrder = s.cfg.maskOrder ∧
      t.cfg.cntModulus = s.cfg.cntModulus ∧ t.out = s.out ∧ t.input = rest

/-- R138 (b), (c): from construction (log 8) the first frame, cut as Narrow, reports as pressed every button
held in it (order: log 21), and is in scroll mode at once when emulation is on and Middle is held. -/
def Obligations.FirstFrameReportsHeldButtons : Prop :=
  ∀ (c : Config) (b x y : Byte), Rules.SyncByte b → Rules.DataByte x → Rules.DataByte y →
    ∃ t, deliverAll (nframe b x y) (State.construct c) = some t ∧ t.len = 0 ∧ t.prevBtn = b ∧
      t.out = ([ButtonId.left, .middle, .right].filter (fun id => Rules.pressed c id b)).map
          (fun id => .buttonChanged id true) ++ Rules.pairEvents c b (x, y)

/-! ### Invariants -/

/-- The invariants of R17 hold after construction under every configuration, and so at `State.reset`. -/
def Obligations.ConstructionMeetsInvariant : Prop :=
  (∀ c : Config, BufferInv (State.construct c)) ∧ BufferInv State.reset

/-- The invariants of R17 (a), (b), (c) are kept by every step. -/
def Obligations.StepKeepsInvariant : Prop :=
  ∀ s t : State, BufferInv s → step s = .next t → BufferInv t

/-- R14: with the unbounded counter, `CNT` counts the bytes fed since the last sync byte: a sync byte clears
it and any number of data bytes adds that number. -/
def Obligations.CountFollowsBytes : Prop :=
  ∀ s : State, s.cfg.cntModulus = none →
    (∀ ds, (∀ d ∈ ds, Rules.DataByte d) →
      ∃ t, deliverAll ds s = some t ∧ t.cnt = s.cnt + ds.length) ∧
    (∀ b, Rules.SyncByte b → ∃ t, deliver b s = .next t ∧ t.cnt = 0)

/-- R17 (d): with the unbounded counter, after any stream from construction that holds a sync byte, an empty
buffer goes with a count of at least 2. -/
def Obligations.IdleAfterSyncCountsTwo : Prop :=
  ∀ (c : Config) (bs : List Byte), c.cntModulus = none → (∃ b ∈ bs, Rules.SyncByte b) →
    ∃ t, deliverAll bs (State.construct c) = some t ∧ (t.len = 0 → 2 ≤ t.cnt)

/-- R16, R22: no delivered byte changes the configuration, and no operation does. -/
def Obligations.ConfigurationIsConstant : Prop :=
  (∀ (bs : List Byte) (s : State), ∃ t, deliverAll bs s = some t ∧ t.cfg = s.cfg) ∧
  (∀ (i : Instr) (s t : State), exec i s = .next t → t.cfg = s.cfg)

/-! ### Output -/

/-- R32, R96: one feed appends at most three button events, at most one a button, then at most two pair
events (at most one in Narrow), all Move or all Scroll. How a feed's events show is the model's choice (log 2). -/
def Obligations.OneFeedEmitsAtMostFive : Prop :=
  ∀ (s : State) (b : Byte), ∃ t buttons motion, deliver b s = .next t ∧
    t.out = s.out ++ buttons ++ motion ∧
    buttons.length ≤ 3 ∧ (∀ e ∈ buttons, ∃ id p, e = .buttonChanged id p) ∧
    (∀ id, (buttons.filter (fun e => e = .buttonChanged id true ∨ e = .buttonChanged id false)).length ≤ 1) ∧
    motion.length ≤ (if s.wide then 2 else 1) ∧
    ((∀ e ∈ motion, ∃ dx dy, e = .move dx dy) ∨ (∀ e ∈ motion, ∃ v h, e = .scroll v h))

/-- R107: every event a feed emits in a state that meets R17 lies in the value sets of R107, and no pair
event has both fields zero. -/
def Obligations.FeedEventsInRange : Prop :=
  ∀ (s : State) (b : Byte), BufferInv s → ∃ t evs, deliver b s = .next t ∧ t.out = s.out ++ evs ∧
    ∀ e ∈ evs, Rules.reachableEvent s.cfg e

/-- R22: nothing the block does depends on what it has emitted: with any other output so far, a step gives
the same state but for the output, to which the same events are appended. -/
def Obligations.OutputIsNeverRead : Prop :=
  ∀ (s : State) (o : List Event), ∃ t evs, step s = .next t ∧ t.out = s.out ++ evs ∧
    step { s with out := o } = .next { t with out := o ++ evs }

/-- R57: the event word tells events with `Int8` fields apart, and kind 3 is never produced. -/
def Obligations.EventWordsAreDistinct : Prop :=
  let int8 (e : Event) : Prop :=
    match e with
    | .move a b => (-128 ≤ a ∧ a ≤ 127) ∧ (-128 ≤ b ∧ b ≤ 127)
    | .scroll a b => (-128 ≤ a ∧ a ≤ 127) ∧ (-128 ≤ b ∧ b ≤ 127)
    | .buttonChanged _ _ => True
  ∀ (c : Config) (e f : Event), int8 e → int8 f →
    (eventWord c e = eventWord c f → e = f) ∧ (eventWord c e).extractLsb' 16 2 ≠ 3

/-! ### The whole machine -/

/-- R65 over the list form of R37: from every state whose buffer the five entries can hold, delivering a
byte does to the state what the rules' `feed` does to the list form, and emits the same events. (At
`LEN = 5` a data byte has no entry to go to, log 10; no reachable state is there.) -/
def Obligations.FeedAgreesWithListForm : Prop :=
  ∀ (s : State) (b : Byte), (s.len ≤ 4 ∨ (s.len = 5 ∧ Rules.SyncByte b)) →
    ∃ t, deliver b s = .next t ∧
      listForm t = (Rules.feed s.cfg (listForm s) b).1 ∧
      t.out = s.out ++ (Rules.feed s.cfg (listForm s) b).2 ∧
      t.cfg = s.cfg ∧ t.input = s.input

/-- R19: states that meet R17 (a) and differ only where R19 says it cannot be observed emit the same events
on every stream, and stay so. -/
def Obligations.HiddenStateIsUnobservable : Prop :=
  ∀ (bs : List Byte) (s t : State), BufferInv s → BufferInv t → Alike s t →
    ∃ s' t' evs, deliverAll bs s = some s' ∧ deliverAll bs t = some t' ∧ Alike s' t' ∧
      s'.out = s.out ++ evs ∧ t'.out = t.out ++ evs

/-- R85: with the unbounded counter and R17, every byte takes the control state where the transition table
says. -/
def Obligations.ControlFollowsTable : Prop :=
  ∀ (s : State) (b : Byte), BufferInv s → s.cfg.cntModulus = none →
    ∃ t k, deliver b s = .next t ∧ controlState s = some k ∧
      (Rules.SyncByte b → controlState t = some (onSync (decide (s.cnt + 1 = 5)) k)) ∧
      (Rules.DataByte b → controlState t = some (onData k))

/-- R86: from any state that meets R17 (a), a sync byte and then as many data bytes as the width it selects
interpret exactly one frame, that sync byte's, and leave the block idle; what came before shows only in
`PREV_BTN` and in the width. -/
def Obligations.SyncResynchronizes : Prop :=
  ∀ (s : State) (b : Byte) (ds : List Byte), s.len < Rules.frameWidth s.wide → Rules.SyncByte b →
    (∀ d ∈ ds, Rules.DataByte d) →
    ds.length + 1 = Rules.frameWidth (decide (Rules.counted s.cfg s.cnt = 5)) →
    ∃ t, deliverAll (b :: ds) s = some t ∧ t.len = 0 ∧ t.prevBtn = b ∧
      t.wide = decide (Rules.counted s.cfg s.cnt = 5) ∧
      t.out = s.out ++ Rules.frameEvents s.cfg s.prevBtn b (Rules.pairsOf ds)

/-- R87 (a): a Wide frame met in Narrow gives its first pair only, and the next sync byte selects Wide. -/
def Obligations.WideDeviceMetInNarrow : Prop :=
  ∀ (s : State) (b x y u v b' : Byte), s.len < Rules.frameWidth s.wide → s.cfg.cntModulus = none →
    s.cnt ≠ 4 → Rules.SyncByte b → Rules.SyncByte b' →
    (∀ d ∈ [x, y, u, v], Rules.DataByte d) →
    ∃ t, deliverAll (wframe b x y u v ++ [b']) s = some t ∧ t.wide = true ∧ t.len = 1 ∧
      t.out = s.out ++ Rules.frameEvents s.cfg s.prevBtn b [(x, y)]

/-- R87 (b): a Narrow frame met in Wide is lost whole, and the next sync byte selects Narrow. -/
def Obligations.NarrowDeviceMetInWide : Prop :=
  ∀ (s : State) (b x y b' : Byte), s.len < Rules.frameWidth s.wide → s.cfg.cntModulus = none →
    s.cnt = 4 → Rules.SyncByte b → Rules.SyncByte b' → Rules.DataByte x → Rules.DataByte y →
    ∃ t, deliverAll (nframe b x y ++ [b']) s = some t ∧ t.wide = false ∧ t.len = 1 ∧
      t.out = s.out ∧ t.prevBtn = s.prevBtn

/-- R87 (c): a Wide device that loses one payload byte loses that frame and half of the next, and is met in
Wide again by the sync byte after. -/
def Obligations.LostByteCostsFrameAndHalf : Prop :=
  ∀ (s : State) (b₀ p q r b₁ x y u v b₂ : Byte), s.len < Rules.frameWidth s.wide →
    s.cfg.cntModulus = none → s.cnt = 4 →
    Rules.SyncByte b₀ → Rules.SyncByte b₁ → Rules.SyncByte b₂ →
    (∀ d ∈ [p, q, r, x, y, u, v], Rules.DataByte d) →
    ∃ t, deliverAll ([b₀, p, q, r] ++ wframe b₁ x y u v ++ [b₂]) s = some t ∧ t.wide = true ∧
      t.len = 1 ∧ t.out = s.out ++ Rules.frameEvents s.cfg s.prevBtn b₁ [(x, y)]

/-- Frames cut as sent (R87's "from then on every frame is whole"): any number of whole frames of one
dialect, met where that dialect is selected, are all decoded, in order, and the dialect stays. The premise
that no payload byte is a sync value is the one R141 asks for. -/
def Obligations.WholeFramesAreAllDecoded : Prop :=
  ∀ (wide : Bool) (s : State) (frames : List (Byte × List Byte)), s.cfg.cntModulus = none →
    s.len = 0 → (s.cnt = 4 ↔ wide = true) →
    (∀ f ∈ frames, Rules.SyncByte f.1 ∧ f.2.length + 1 = Rules.frameWidth wide ∧
      ∀ d ∈ f.2, Rules.DataByte d) →
    ∃ t, deliverAll (frames.map (fun f => f.1 :: f.2)).flatten s = some t ∧ t.len = 0 ∧
      (t.cnt = 4 ↔ wide = true) ∧
      t.out = s.out ++ Rules.sessionEvents s.cfg s.prevBtn frames

/-- R147: with a counter that wraps modulo `2^k`, a sync byte after `2^k * j + 4` data bytes since the last
sync byte selects Wide, where the unbounded counter selects Narrow (j at least 1). -/
def Obligations.WrappingCounterSelectsWide : Prop :=
  ∀ (s : State) (k j : Nat) (ds : List Byte) (b : Byte), 3 ≤ k → 1 ≤ j → s.cnt = 0 →
    (∀ d ∈ ds, Rules.DataByte d) → ds.length = 2 ^ k * j + 4 → Rules.SyncByte b →
    (s.cfg.cntModulus = some (2 ^ k) →
      ∃ t, deliverAll (ds ++ [b]) s = some t ∧ t.wide = true) ∧
    (s.cfg.cntModulus = none →
      ∃ t, deliverAll (ds ++ [b]) s = some t ∧ t.wide = false)
end

