-- ==== Sys2Proof/Laws/Operands.lean ====
section
/-! SUPPORT. What the operand forms and the tests compute, in the words of the rules' plain-number forms. -/

namespace Sys2Proof.Machine

open Safety

/-- The mask test of R46 is the range `0x80`..`0x87`. -/
theorem isSync_iff (b : Byte) : isSync b = true ↔ Rules.SyncByte b := by
  revert b; decide

theorem isSync_eq_false_iff (b : Byte) : isSync b = false ↔ Rules.DataByte b := by
  rw [Rules.DataByte, ← isSync_iff]; simp

@[simp] theorem width_eq (w : Bool) : width w = Rules.frameWidth w := by cases w <;> rfl

@[simp] theorem nextCount_eq (c : Config) (n : Nat) : nextCount c n = Rules.counted c n := rfl

theorem isSync_syncByte (l m r : Bool) : isSync (syncByte l m r) = true := by
  revert l m r; decide

/-- The pattern `10000LMR` as a number (R48). -/
theorem syncByte_eq (l m r : Bool) : syncByte l m r = Rules.buttonByte l m r := by
  revert l m r; decide

theorem plainField_eq (v : Byte) : plainField v = Rules.signed v.toNat := by
  revert v; decide

theorem negatedField_eq (v : Byte) : negatedField v = Rules.signed (Rules.negated v) := by
  revert v; decide

theorem isZeroPair_iff (x y : Byte) : isZeroPair x y = true ↔ x.toNat = 0 ∧ y.toNat = 0 := by
  have h : ∀ v : Byte, (v == 0x00) = true ↔ v.toNat = 0 := by decide
  simp only [isZeroPair, Bool.and_eq_true, h]

/-- Testing a button's mask is testing its bit (R91). -/
theorem isPressed_eq (c : Config) (id : ButtonId) (b : Byte) :
    isPressed c id b = Rules.pressed c id b := by
  cases c with | mk emu inv order modulus =>
  cases order <;> cases id <;>
    simp only [isPressed, buttonMask, Rules.pressed, Rules.buttonBit, reduceCtorEq, if_true, if_false] <;>
    (revert b; decide)

/-- A bit of the XOR is set exactly when the two bytes show different levels (R91). -/
theorem isChanged_eq (c : Config) (id : ButtonId) (b p : Byte) :
    isChanged c id b p = (Rules.pressed c id b != Rules.pressed c id p) := by
  have key : ∀ k < 8, ∀ b p : Byte, ((b ^^^ p) &&& BitVec.twoPow 8 k != 0) =
      ((!b.toNat.testBit k) != (!p.toNat.testBit k)) := by
    intro k hk b p
    have h : ((b ^^^ p) &&& BitVec.twoPow 8 k != 0) = (b ^^^ p).getLsbD k := by
      rw [BitVec.and_twoPow]
      cases (b ^^^ p).getLsbD k <;> simp [BitVec.twoPow_eq]
      intro h0
      have := congrArg (fun v => BitVec.getLsbD v k) h0
      simp [hk] at this
    rw [h, BitVec.getLsbD_xor]
    simp only [BitVec.getLsbD]
    cases b.toNat.testBit k <;> cases p.toNat.testBit k <;> rfl
  have mask : buttonMask c id = BitVec.twoPow 8 (Rules.buttonBit c id) := by
    cases c with | mk emu inv order modulus =>
    cases order <;> cases id <;> rfl
  have bit : Rules.buttonBit c id < 8 := by
    cases c with | mk emu inv order modulus =>
    cases order <;> cases id <;> simp [Rules.buttonBit]
  rw [isChanged, mask, key _ bit, Rules.pressed, Rules.pressed]

/-- Byte by byte, the encoder's patterns of the five data rows put back what the decoder took out. -/
theorem data00_7F_word (b : Byte) (h : b &&& 0x80 = 0) : 0b0#1 ++ b.extractLsb' 0 7 = b := by
  revert b; decide
theorem dataC0_FF_word (b : Byte) (h : b &&& 0xC0 = 0xC0) : 0b11#2 ++ b.extractLsb' 0 6 = b := by
  revert b; decide
theorem dataA0_BF_word (b : Byte) (h : b &&& 0xE0 = 0xA0) : 0b101#3 ++ b.extractLsb' 0 5 = b := by
  revert b; decide
theorem data90_9F_word (b : Byte) (h : b &&& 0xF0 = 0x90) : 0b1001#4 ++ b.extractLsb' 0 4 = b := by
  revert b; decide
theorem data88_8F_word (b : Byte) (h0 : isSync b = false) (h1 : ¬ b &&& 0x80 = 0)
    (h2 : ¬ b &&& 0xC0 = 0xC0) (h3 : ¬ b &&& 0xE0 = 0xA0) (h4 : ¬ b &&& 0xF0 = 0x90) :
    0b10001#5 ++ b.extractLsb' 0 3 = b := by
  revert b; decide
theorem sync_word (b : Byte) (h : isSync b = true) :
    syncByte (b.getLsbD 2) (b.getLsbD 1) (b.getLsbD 0) = b := by
  revert b; decide

end Sys2Proof.Machine
end

