-- ==== Sys2Proof/Laws/State.lean ====
section
/-! SUPPORT. One lemma per field per update of the state, each true by rfl. -/

namespace Sys2Proof.Machine.State

variable (s : State)

@[simp] theorem setLen_buf (n : Nat) : (s.setLen n).buf = s.buf := rfl
@[simp] theorem setLen_len (n : Nat) : (s.setLen n).len = n := rfl
@[simp] theorem setLen_cnt (n : Nat) : (s.setLen n).cnt = s.cnt := rfl
@[simp] theorem setLen_wide (n : Nat) : (s.setLen n).wide = s.wide := rfl
@[simp] theorem setLen_prevBtn (n : Nat) : (s.setLen n).prevBtn = s.prevBtn := rfl
@[simp] theorem setLen_cfg (n : Nat) : (s.setLen n).cfg = s.cfg := rfl
@[simp] theorem setLen_scroll (n : Nat) : (s.setLen n).scroll = s.scroll := rfl
@[simp] theorem setLen_input (n : Nat) : (s.setLen n).input = s.input := rfl
@[simp] theorem setLen_out (n : Nat) : (s.setLen n).out = s.out := rfl

@[simp] theorem setCnt_buf (n : Nat) : (s.setCnt n).buf = s.buf := rfl
@[simp] theorem setCnt_len (n : Nat) : (s.setCnt n).len = s.len := rfl
@[simp] theorem setCnt_cnt (n : Nat) : (s.setCnt n).cnt = n := rfl
@[simp] theorem setCnt_wide (n : Nat) : (s.setCnt n).wide = s.wide := rfl
@[simp] theorem setCnt_prevBtn (n : Nat) : (s.setCnt n).prevBtn = s.prevBtn := rfl
@[simp] theorem setCnt_cfg (n : Nat) : (s.setCnt n).cfg = s.cfg := rfl
@[simp] theorem setCnt_scroll (n : Nat) : (s.setCnt n).scroll = s.scroll := rfl
@[simp] theorem setCnt_input (n : Nat) : (s.setCnt n).input = s.input := rfl
@[simp] theorem setCnt_out (n : Nat) : (s.setCnt n).out = s.out := rfl

@[simp] theorem setWide_buf (w : Bool) : (s.setWide w).buf = s.buf := rfl
@[simp] theorem setWide_len (w : Bool) : (s.setWide w).len = s.len := rfl
@[simp] theorem setWide_cnt (w : Bool) : (s.setWide w).cnt = s.cnt := rfl
@[simp] theorem setWide_wide (w : Bool) : (s.setWide w).wide = w := rfl
@[simp] theorem setWide_prevBtn (w : Bool) : (s.setWide w).prevBtn = s.prevBtn := rfl
@[simp] theorem setWide_cfg (w : Bool) : (s.setWide w).cfg = s.cfg := rfl
@[simp] theorem setWide_scroll (w : Bool) : (s.setWide w).scroll = s.scroll := rfl
@[simp] theorem setWide_input (w : Bool) : (s.setWide w).input = s.input := rfl
@[simp] theorem setWide_out (w : Bool) : (s.setWide w).out = s.out := rfl

@[simp] theorem setPrevBtn_buf (b : Byte) : (s.setPrevBtn b).buf = s.buf := rfl
@[simp] theorem setPrevBtn_len (b : Byte) : (s.setPrevBtn b).len = s.len := rfl
@[simp] theorem setPrevBtn_cnt (b : Byte) : (s.setPrevBtn b).cnt = s.cnt := rfl
@[simp] theorem setPrevBtn_wide (b : Byte) : (s.setPrevBtn b).wide = s.wide := rfl
@[simp] theorem setPrevBtn_prevBtn (b : Byte) : (s.setPrevBtn b).prevBtn = b := rfl
@[simp] theorem setPrevBtn_cfg (b : Byte) : (s.setPrevBtn b).cfg = s.cfg := rfl
@[simp] theorem setPrevBtn_scroll (b : Byte) : (s.setPrevBtn b).scroll = s.scroll := rfl
@[simp] theorem setPrevBtn_input (b : Byte) : (s.setPrevBtn b).input = s.input := rfl
@[simp] theorem setPrevBtn_out (b : Byte) : (s.setPrevBtn b).out = s.out := rfl

@[simp] theorem setScroll_buf (v : Bool) : (s.setScroll v).buf = s.buf := rfl
@[simp] theorem setScroll_len (v : Bool) : (s.setScroll v).len = s.len := rfl
@[simp] theorem setScroll_cnt (v : Bool) : (s.setScroll v).cnt = s.cnt := rfl
@[simp] theorem setScroll_wide (v : Bool) : (s.setScroll v).wide = s.wide := rfl
@[simp] theorem setScroll_prevBtn (v : Bool) : (s.setScroll v).prevBtn = s.prevBtn := rfl
@[simp] theorem setScroll_cfg (v : Bool) : (s.setScroll v).cfg = s.cfg := rfl
@[simp] theorem setScroll_scroll (v : Bool) : (s.setScroll v).scroll = v := rfl
@[simp] theorem setScroll_input (v : Bool) : (s.setScroll v).input = s.input := rfl
@[simp] theorem setScroll_out (v : Bool) : (s.setScroll v).out = s.out := rfl

@[simp] theorem setInput_buf (q : List Input) : (s.setInput q).buf = s.buf := rfl
@[simp] theorem setInput_len (q : List Input) : (s.setInput q).len = s.len := rfl
@[simp] theorem setInput_cnt (q : List Input) : (s.setInput q).cnt = s.cnt := rfl
@[simp] theorem setInput_wide (q : List Input) : (s.setInput q).wide = s.wide := rfl
@[simp] theorem setInput_prevBtn (q : List Input) : (s.setInput q).prevBtn = s.prevBtn := rfl
@[simp] theorem setInput_cfg (q : List Input) : (s.setInput q).cfg = s.cfg := rfl
@[simp] theorem setInput_scroll (q : List Input) : (s.setInput q).scroll = s.scroll := rfl
@[simp] theorem setInput_input (q : List Input) : (s.setInput q).input = q := rfl
@[simp] theorem setInput_out (q : List Input) : (s.setInput q).out = s.out := rfl

@[simp] theorem writeBuf_buf (i : Nat) (b : Byte) : (s.writeBuf i b).buf = s.buf.setIfInBounds i b := rfl
@[simp] theorem writeBuf_len (i : Nat) (b : Byte) : (s.writeBuf i b).len = s.len := rfl
@[simp] theorem writeBuf_cnt (i : Nat) (b : Byte) : (s.writeBuf i b).cnt = s.cnt := rfl
@[simp] theorem writeBuf_wide (i : Nat) (b : Byte) : (s.writeBuf i b).wide = s.wide := rfl
@[simp] theorem writeBuf_prevBtn (i : Nat) (b : Byte) : (s.writeBuf i b).prevBtn = s.prevBtn := rfl
@[simp] theorem writeBuf_cfg (i : Nat) (b : Byte) : (s.writeBuf i b).cfg = s.cfg := rfl
@[simp] theorem writeBuf_scroll (i : Nat) (b : Byte) : (s.writeBuf i b).scroll = s.scroll := rfl
@[simp] theorem writeBuf_input (i : Nat) (b : Byte) : (s.writeBuf i b).input = s.input := rfl
@[simp] theorem writeBuf_out (i : Nat) (b : Byte) : (s.writeBuf i b).out = s.out := rfl

@[simp] theorem emit_buf (e : Event) : (s.emit e).buf = s.buf := rfl
@[simp] theorem emit_len (e : Event) : (s.emit e).len = s.len := rfl
@[simp] theorem emit_cnt (e : Event) : (s.emit e).cnt = s.cnt := rfl
@[simp] theorem emit_wide (e : Event) : (s.emit e).wide = s.wide := rfl
@[simp] theorem emit_prevBtn (e : Event) : (s.emit e).prevBtn = s.prevBtn := rfl
@[simp] theorem emit_cfg (e : Event) : (s.emit e).cfg = s.cfg := rfl
@[simp] theorem emit_scroll (e : Event) : (s.emit e).scroll = s.scroll := rfl
@[simp] theorem emit_input (e : Event) : (s.emit e).input = s.input := rfl
@[simp] theorem emit_out (e : Event) : (s.emit e).out = s.out ++ [e] := rfl

@[simp] theorem countByte_buf : (s.countByte).buf = s.buf := rfl
@[simp] theorem countByte_len : (s.countByte).len = s.len := rfl
@[simp] theorem countByte_cnt : (s.countByte).cnt = nextCount s.cfg s.cnt := rfl
@[simp] theorem countByte_wide : (s.countByte).wide = s.wide := rfl
@[simp] theorem countByte_prevBtn : (s.countByte).prevBtn = s.prevBtn := rfl
@[simp] theorem countByte_cfg : (s.countByte).cfg = s.cfg := rfl
@[simp] theorem countByte_scroll : (s.countByte).scroll = s.scroll := rfl
@[simp] theorem countByte_input : (s.countByte).input = s.input := rfl
@[simp] theorem countByte_out : (s.countByte).out = s.out := rfl

end Sys2Proof.Machine.State
end

