-- ==== Sys2Proof/Laws/Ops.lean ====
section
/-! SUPPORT. One lemma per shared operation that says everything it does, as one record update. -/

namespace Sys2Proof.Machine

open Safety

/-- BTN adds the button events and stores the byte, and nothing else (R91, R93). -/
theorem reportButtons_eq (b : Byte) (s : State) :
    reportButtons b s =
      { s with prevBtn := b, out := s.out ++ Rules.buttonEvents s.cfg s.prevBtn b } := by
  have one : ∀ (id : ButtonId) (t : State), reportButton id b t =
      { t with out := t.out ++ Rules.buttonEvent t.cfg id t.prevBtn b } := by
    intro id t
    simp only [reportButton, emitIf, isChanged_eq, isPressed_eq, Rules.buttonEvent, State.emit]
    by_cases h : Rules.pressed t.cfg id b = Rules.pressed t.cfg id t.prevBtn <;> simp [h]
  simp [reportButtons, one, Rules.buttonEvents, State.setPrevBtn, List.append_assoc]

/-- MODE sets the frame's mode, and nothing else (R94). -/
theorem selectMode_eq (b : Byte) (s : State) :
    selectMode b s = { s with scroll := Rules.scrolls s.cfg b } := by
  simp [selectMode, scrollMode, State.setScroll, Rules.scrolls, isPressed_eq]

/-- A pair of a frame whose mode has been selected from `b` adds its event, and nothing else (R90). -/
theorem runPair_eq (b x y : Byte) (s : State) (h : s.scroll = Rules.scrolls s.cfg b) :
    runPair x y s = { s with out := s.out ++ Rules.pairEvents s.cfg b (x, y) } := by
  unfold runPair Rules.pairEvents
  by_cases hz : x.toNat = 0 ∧ y.toNat = 0
  · rw [if_pos ((isZeroPair_iff x y).2 hz), if_pos hz]; simp
  · rw [if_neg (fun h => hz ((isZeroPair_iff x y).1 h)), if_neg hz, ← h]
    cases hs : s.scroll <;> cases s.cfg.scrollInv <;>
      simp [hs, emitMove, emitScroll, emitScrollInv, State.emit, plainField_eq, negatedField_eq]

theorem runPairs_eq (b : Byte) (ps : List (Byte × Byte)) (s : State)
    (h : s.scroll = Rules.scrolls s.cfg b) :
    runPairs ps s = { s with out := s.out ++ (ps.map (Rules.pairEvents s.cfg b)).flatten } := by
  induction ps generalizing s with
  | nil => simp [runPairs]
  | cons p rest ih =>
    obtain ⟨x, y⟩ := p
    have hs := ih { s with out := s.out ++ Rules.pairEvents s.cfg b (x, y) } h
    rw [runPairs, runPair_eq b x y s h, hs]
    simp

/-- `Interpret` stores the button byte, selects the mode and adds the frame's events, and nothing else
(R90, R96). -/
theorem interpret_eq (b : Byte) (ps : List (Byte × Byte)) (s : State) :
    interpret b ps s =
      { s with prevBtn := b, scroll := Rules.scrolls s.cfg b,
               out := s.out ++ Rules.frameEvents s.cfg s.prevBtn b ps } := by
  rw [interpret, reportButtons_eq, selectMode_eq, runPairs_eq b ps _ rfl]
  simp [Rules.frameEvents]

theorem interpretBuf_eq (s : State) :
    interpretBuf s =
      { s with prevBtn := s.buf[0], scroll := Rules.scrolls s.cfg s.buf[0],
               out := s.out ++ Rules.frameEvents s.cfg s.prevBtn s.buf[0] (bufPairs s) } :=
  interpret_eq _ _ _

theorem discardByte_eq (b : Byte) (s : State) :
    discardByte b s = { s with cnt := Rules.counted s.cfg s.cnt } := rfl

theorem appendData_eq (b : Byte) (s : State) :
    appendData b s =
      { s with cnt := Rules.counted s.cfg s.cnt, buf := s.buf.setIfInBounds s.len b,
               len := s.len + 1 } := rfl

/-- The state DATA.COMPLETE hands to `Interpret`, then what it leaves (R83). -/
theorem completeData_eq (b : Byte) (s : State) :
    completeData b s =
      let t := appendData b s
      { t with len := 0, prevBtn := t.buf[0], scroll := Rules.scrolls s.cfg t.buf[0],
               out := s.out ++ Rules.frameEvents s.cfg s.prevBtn t.buf[0] (bufPairs t) } := by
  rw [completeData, interpretBuf_eq]
  rfl

/-- SYNC on a buffer that is not complete: no event, `PREV_BTN` untouched (R67, R70). -/
theorem feedSync_eq_of_incomplete (b : Byte) (s : State) (h : s.len ≠ Rules.frameWidth s.wide) :
    feedSync b s =
      { s with buf := s.buf.setIfInBounds 0 b, len := 1, cnt := 0,
               wide := decide (Rules.counted s.cfg s.cnt = 5) } := by
  have hw : (s.countByte.len == width s.countByte.wide) = false := by simpa using h
  rw [feedSync, flush, hw]
  rfl

/-- SYNC on a complete buffer, which no reachable state has (R67). -/
theorem feedSync_eq_of_complete (b : Byte) (s : State) (h : s.len = Rules.frameWidth s.wide) :
    feedSync b s =
      { s with buf := s.buf.setIfInBounds 0 b, len := 1, cnt := 0,
               wide := decide (Rules.counted s.cfg s.cnt = 5),
               prevBtn := s.buf[0], scroll := Rules.scrolls s.cfg s.buf[0],
               out := s.out ++ Rules.frameEvents s.cfg s.prevBtn s.buf[0] (bufPairs s) } := by
  have hw : (s.countByte.len == width s.countByte.wide) = true := by simpa using h
  rw [feedSync, flush, hw, if_pos rfl, interpretBuf_eq]
  rfl

/-- The operation R80 selects, as one of three cases. -/
theorem feedData_eq (b : Byte) (s : State) :
    feedData b s =
      if s.len = 0 then discardByte b s
      else if s.len + 1 = Rules.frameWidth s.wide then completeData b s
      else appendData b s := by
  simp only [feedData, beq_iff_eq, width_eq]

end Sys2Proof.Machine
end

