-- ==== Sys2Proof/Laws/PerInstr.lean ====
section
/-! SUPPORT. Lemmas made per instruction: an encoding has the number of bytes of its row's format
(30_encoding.md R45: BYTE and BTN one byte, PAIR two, FRAME3 three, FRAME5 five). -/

namespace Sys2Proof.Laws.EncodedLength

/-- The number of bytes of each row's format. -/
def formatBytes : Instr → Nat
  | .sync _ _ _ => 1
  | .data00_7F _ => 1
  | .dataC0_FF _ => 1
  | .dataA0_BF _ => 1
  | .data90_9F _ => 1
  | .data88_8F _ => 1
  | .dataDiscard _ => 1
  | .dataAppend _ => 1
  | .dataComplete _ => 1
  | .frame3 _ _ _ _ _ => 3
  | .frame5 _ _ _ _ _ _ _ => 5
  | .btn _ => 1
  | .mode _ => 1
  | .move _ _ => 2
  | .scroll _ _ => 2
  | .scrollInv _ _ => 2
  | .pairZero => 2

def Statement (i : Instr) : Prop := (encode i).length = formatBytes i

theorem sync (l m r : Bool) : Statement (.sync l m r) := rfl
theorem data00_7F (x : BitVec 7) : Statement (.data00_7F x) := rfl
theorem dataC0_FF (x : BitVec 6) : Statement (.dataC0_FF x) := rfl
theorem dataA0_BF (x : BitVec 5) : Statement (.dataA0_BF x) := rfl
theorem data90_9F (x : BitVec 4) : Statement (.data90_9F x) := rfl
theorem data88_8F (x : BitVec 3) : Statement (.data88_8F x) := rfl
theorem dataDiscard (d : Byte) : Statement (.dataDiscard d) := rfl
theorem dataAppend (d : Byte) : Statement (.dataAppend d) := rfl
theorem dataComplete (d : Byte) : Statement (.dataComplete d) := rfl
theorem frame3 (l m r : Bool) (x y : Byte) : Statement (.frame3 l m r x y) := rfl
theorem frame5 (l m r : Bool) (x y u v : Byte) : Statement (.frame5 l m r x y u v) := rfl
theorem btn (b : Byte) : Statement (.btn b) := rfl
theorem mode (b : Byte) : Statement (.mode b) := rfl
theorem move (x y : Byte) : Statement (.move x y) := rfl
theorem scroll (x y : Byte) : Statement (.scroll x y) := rfl
theorem scrollInv (x y : Byte) : Statement (.scrollInv x y) := rfl
theorem pairZero : Statement .pairZero := rfl

end Sys2Proof.Laws.EncodedLength
end

