-- ==== Sys2Proof/Laws/Step.lean ====
section
/-! SUPPORT. What a step can do, said once: hold, restart, or feed one byte. -/

namespace Sys2Proof.Machine

open Safety

/-- Executing the instruction a fed byte decodes to is feeding the byte (R54). -/
theorem exec_decodeFed (b : Byte) (s : State) :
    exec (decodeFed b) s = .next (if isSync b then feedSync b s else feedData b s) := by
  unfold decodeFed
  by_cases h0 : isSync b = true
  · simp only [h0, if_true, exec, execSync, sync_word b h0]
  have h0' : isSync b = false := by simpa using h0
  simp only [h0', Bool.false_eq_true, if_false, beq_iff_eq]
  split
  · rename_i h; exact congrArg (fun w => Host.Outcome.next (feedData w s)) (data00_7F_word b h)
  split
  · rename_i h; exact congrArg (fun w => Host.Outcome.next (feedData w s)) (dataC0_FF_word b h)
  split
  · rename_i h; exact congrArg (fun w => Host.Outcome.next (feedData w s)) (dataA0_BF_word b h)
  split
  · rename_i h; exact congrArg (fun w => Host.Outcome.next (feedData w s)) (data90_9F_word b h)
  · rename_i h1 h2 h3 h4
    exact congrArg (fun w => Host.Outcome.next (feedData w s)) (data88_8F_word b h0' h1 h2 h3 h4)

theorem step_of_nil (s : State) (h : s.input = []) : step s = .next s := by
  unfold step nextInput; rw [h]

theorem step_of_byte (s : State) (b : Byte) (rest : List Input) (h : s.input = .byte b :: rest) :
    step s = .next (if isSync b then feedSync b (s.setInput rest) else feedData b (s.setInput rest)) := by
  unfold step nextInput; rw [h]; exact exec_decodeFed b _

theorem step_of_restart (s : State) (emu inv : Bool) (rest : List Input)
    (h : s.input = .restart emu inv :: rest) : step s = .next (restart emu inv rest s) := by
  unfold step nextInput; rw [h]; rfl

/-- Every step answers a next state, and that state is one of these. -/
theorem step_cases (s t : State) (h : step s = .next t) :
    (s.input = [] ∧ t = s) ∨
    (∃ b rest, s.input = .byte b :: rest ∧ isSync b = true ∧ t = feedSync b (s.setInput rest)) ∨
    (∃ b rest, s.input = .byte b :: rest ∧ isSync b = false ∧ t = feedData b (s.setInput rest)) ∨
    (∃ emu inv rest, s.input = .restart emu inv :: rest ∧ t = restart emu inv rest s) := by
  rcases hin : s.input with _ | ⟨a, rest⟩
  · rw [step_of_nil s hin] at h; cases h; exact .inl ⟨rfl, rfl⟩
  cases a with
  | byte b =>
    rw [step_of_byte s b rest hin] at h
    cases hs : isSync b <;> simp only [hs, if_true, Bool.false_eq_true, if_false] at h <;> cases h
    · exact .inr (.inr (.inl ⟨b, rest, rfl, hs, rfl⟩))
    · exact .inr (.inl ⟨b, rest, rfl, hs, rfl⟩)
  | restart emu inv =>
    rw [step_of_restart s emu inv rest hin] at h; cases h
    exact .inr (.inr (.inr ⟨emu, inv, rest, rfl, rfl⟩))

/-- Delivering a byte is feeding it. -/
theorem deliver_eq (b : Byte) (s : State) :
    deliver b s = .next (if isSync b then feedSync b s else feedData b s) :=
  step_of_byte { s with input := .byte b :: s.input } b s.input rfl

theorem deliverAll_cons (b : Byte) (bs : List Byte) (s : State) :
    deliverAll (b :: bs) s = deliverAll bs (if isSync b then feedSync b s else feedData b s) := by
  rw [deliverAll, deliver_eq]

theorem deliverAll_append (bs cs : List Byte) (s : State) :
    deliverAll (bs ++ cs) s = (deliverAll bs s).bind (deliverAll cs) := by
  induction bs generalizing s with
  | nil => rfl
  | cons b bs ih => rw [List.cons_append, deliverAll_cons, deliverAll_cons, ih]

/-- No run of bytes ever stops (R58, R115). -/
theorem deliverAll_isSome (bs : List Byte) (s : State) : ∃ t, deliverAll bs s = some t := by
  induction bs generalizing s with
  | nil => exact ⟨s, rfl⟩
  | cons b bs ih => rw [deliverAll_cons]; exact ih _

end Sys2Proof.Machine
end

