-- ==== Sys2Proof/Tests/Slice0.lean ====
section
/-! SUPPORT. Tests with expected results from the spec (95_test_vectors.md, named at each), and for every
obligation with hypotheses a state and operands that meet them all. -/

namespace Sys2Proof.Tests

open Machine Safety

/-! ### Small states -/

/-- Construction with the two configuration inputs at given values. -/
def fresh (emu inv : Bool) : State := State.construct (Config.ofInputs emu inv)

/-- A state written as 95_test_vectors.md writes it: `LEN / CNT / WIDE / PREV_BTN [BUF[0 .. LEN-1]]`. -/
def at' (cnt : Nat) (wide : Bool) (prev : Byte) (held : List Byte) : State :=
  { fresh false false with
    buf := #v[held.getD 0 0, held.getD 1 0, held.getD 2 0, held.getD 3 0, held.getD 4 0],
    len := held.length, cnt := cnt, wide := wide, prevBtn := prev }

/-- `LEN / CNT / WIDE / PREV_BTN` and the events of an outcome. -/
def seen : Host.Outcome State Fault Refusal → Option (Nat × Nat × Bool × Byte × List Event)
  | .next t => some (t.len, t.cnt, t.wide, t.prevBtn, t.out)
  | .fault _ => none
  | .refused _ => none

/-- One field of an outcome. -/
def look {α : Type} (f : State → α) : Host.Outcome State Fault Refusal → Option α
  | .next t => some (f t)
  | .fault _ => none
  | .refused _ => none

/-! ### WellFormed: one ill-formed term for each check -/

theorem test_wf_discard : (Instr.dataDiscard 0x80).wellFormed = false := by decide
theorem test_wf_append : (Instr.dataAppend 0x87).wellFormed = false := by decide
theorem test_wf_complete : (Instr.dataComplete 0x83).wellFormed = false := by decide
theorem test_wf_frame3 : (Instr.frame3 true true true 0x81 0x00).wellFormed = false ∧
    (Instr.frame3 true true true 0x00 0x81).wellFormed = false := by decide
theorem test_wf_frame5 : (Instr.frame5 true true true 0x80 0 0 0).wellFormed = false ∧
    (Instr.frame5 true true true 0 0x80 0 0).wellFormed = false ∧
    (Instr.frame5 true true true 0 0 0x80 0).wellFormed = false ∧
    (Instr.frame5 true true true 0 0 0 0x80).wellFormed = false := by decide
theorem test_wf_move : (Instr.move 0 0).wellFormed = false := by decide
theorem test_wf_scroll : (Instr.scroll 0 0).wellFormed = false := by decide
theorem test_wf_scrollInv : (Instr.scrollInv 0 0).wellFormed = false := by decide

/-! ### Decode: one word a row, written from its encoding (R46 to R50, opcode_table.json) -/

theorem test_decode_sync : decodeFed 0b10000011#8 = .sync false true true := by decide
theorem test_decode_00_7F : decodeFed 0b01010101#8 = .data00_7F 0b1010101 := by decide
theorem test_decode_C0_FF : decodeFed 0b11101010#8 = .dataC0_FF 0b101010 := by decide
theorem test_decode_A0_BF : decodeFed 0b10110010#8 = .dataA0_BF 0b10010 := by decide
/-- `0x90` is data under the five-bit pattern (90_conflicts.md C1). -/
theorem test_decode_90_9F : decodeFed 0b10010000#8 = .data90_9F 0b0000 := by decide
theorem test_decode_88_8F : decodeFed 0b10001000#8 = .data88_8F 0b000 := by decide
theorem test_decode_discard : decode (.payload 0 false) [0x05] = .ok (.dataDiscard 0x05) := by rfl
theorem test_decode_append : decode (.payload 1 false) [0x05] = .ok (.dataAppend 0x05) ∧
    decode (.payload 2 true) [0x05] = .ok (.dataAppend 0x05) := by exact ⟨rfl, rfl⟩
theorem test_decode_complete : decode (.payload 2 false) [0x05] = .ok (.dataComplete 0x05) ∧
    decode (.payload 4 true) [0x05] = .ok (.dataComplete 0x05) := by exact ⟨rfl, rfl⟩
theorem test_decode_frame3 : decode (.frame false) [0b10000101#8, 0x05, 0xFE] =
    .ok (.frame3 true false true 0x05 0xFE) := by rfl
theorem test_decode_frame5 : decode (.frame true) [0b10000110#8, 0x01, 0xFE, 0x03, 0xFC] =
    .ok (.frame5 true true false 0x01 0xFE 0x03 0xFC) := by rfl
theorem test_decode_btn : decode .button [0b11111011#8] = .ok (.btn 0xFB) := by rfl
theorem test_decode_mode : decode .mode [0b10000101#8] = .ok (.mode 0x85) := by rfl
theorem test_decode_move : decode (.pair false true) [0x05, 0xFE] = .ok (.move 0x05 0xFE) := by rfl
theorem test_decode_scroll : decode (.pair true false) [0x03, 0xFF] = .ok (.scroll 0x03 0xFF) := by rfl
theorem test_decode_scrollInv : decode (.pair true true) [0x03, 0xFF] = .ok (.scrollInv 0x03 0xFF) := by
  rfl
theorem test_decode_pairZero : decode (.pair true true) [0x00, 0x00] = .ok .pairZero := by rfl
theorem test_reject_length : decode .fed [] = .error (.wrongLength 0) := by rfl
theorem test_reject_frame_start : decode (.frame false) [0xFF, 0x05, 0x00] = .error .frameStartNotSync := by
  rfl
theorem test_reject_payload : decode (.frame false) [0x87, 0x05, 0x81] = .error .syncInPayload := by rfl
/-- The table's numbering of FRAME3: L = bit 18, M = 17, R = 16, x = 15:8, y = 7:0. -/
theorem test_table_frame3 : decodeTableWord 24 0x8305FE = some (.frame3 false true true 0x05 0xFE) := by
  decide
theorem test_table_pairZero : decodeTableWord 16 0 = some .pairZero := by decide
/-- A placed FRAME3 is what the next step runs (S3: `83 00 00` from reset). -/
theorem test_placed_frame3 : seen (step (State.reset.withFetchWord 24 0x830000)) =
    some (0, 2, false, 0x83, [.buttonChanged .left true]) := by decide
theorem test_placed_frame5 : seen (step (State.reset.withFetchWord 40 0x8701FE03FC)) =
    some (0, 4, true, 0x87, [.move 1 2, .move 3 4]) := by decide

/-! ### One step or one operation a test -/

/-- 95 section 2.2, row 2: a count of 5 selects Wide. -/
theorem test_sync_wide : seen (exec (.sync true false true) (at' 4 false 0xFF [])) =
    some (1, 0, true, 0xFF, []) := by decide
/-- 95 section 2.2, the unreachable state: the flush arm interprets. -/
theorem test_sync_flush : seen (deliver 0x87 (at' 2 false 0xFF [0x87, 0x05, 0x00])) =
    some (1, 0, false, 0x87, [.move 5 0]) := by decide
/-- 95 section 2.3, row 5. -/
theorem test_data00_7F : seen (exec (.data00_7F 0x05) (at' 0 false 0xFF [0x87])) =
    some (2, 1, false, 0xFF, []) := by decide
/-- 95 section 2.3, row 4. -/
theorem test_dataC0_FF : seen (exec (.dataC0_FF 0x3F) (at' 7 false 0xFF [])) =
    some (0, 8, false, 0xFF, []) := by decide
/-- By hand from R102: Neg8(0xA0) = 0x60 = 96. -/
theorem test_dataA0_BF : seen (exec (.dataA0_BF 0x00) (at' 1 false 0x87 [0x87, 0x05])) =
    some (0, 2, false, 0x87, [.move 5 96]) := by decide
/-- By hand from R102: Neg8(0x90) = 0x70 = 112. -/
theorem test_data90_9F : seen (exec (.data90_9F 0x0) (at' 1 false 0x87 [0x87, 0x00])) =
    some (0, 2, false, 0x87, [.move 0 112]) := by decide
/-- 95 section 2.6: `87 88 88` gives Move(-120, 120). -/
theorem test_data88_8F : seen (exec (.data88_8F 0x0) (at' 1 false 0xFF [0x87, 0x88])) =
    some (0, 2, false, 0x87, [.move (-120) 120]) := by decide
/-- 95 section 2.3, row 3. -/
theorem test_discard : seen (exec (.dataDiscard 0x55) (at' 4 true 0x87 [])) =
    some (0, 5, true, 0x87, []) := by decide
/-- 95 section 2.3, row 7: the index written is `LEN` before the increment. -/
theorem test_append : look (fun t => (t.len, t.buf.toList))
    (exec (.dataAppend 0xFE) (at' 1 true 0x87 [0x87, 0x01])) = some (3, [0x87, 0x01, 0xFE, 0, 0]) := by decide
/-- 95 section 2.3, last rows. -/
theorem test_complete_narrow : seen (exec (.dataComplete 0x00) (at' 1 false 0x87 [0x83, 0x00])) =
    some (0, 2, false, 0x83, [.buttonChanged .left true]) := by decide
theorem test_complete_wide : seen (exec (.dataComplete 0xFC) (at' 3 true 0x87 [0x87, 0x01, 0xFE, 0x03])) =
    some (0, 4, true, 0x87, [.move 1 2, .move 3 4]) := by decide
/-- 95 section 2.6, `87 FB 02`. -/
theorem test_frame3 : look (fun t => (t.out, t.prevBtn)) (exec (.frame3 true true true 0xFB 0x02) State.reset) =
    some ([.move (-5) (-2)], 0x87) := by decide
/-- S6, `SCROLL_INV = 1`. -/
theorem test_frame5 : look (fun t => t.out) (exec (.frame5 true false true 0x01 0xFF 0x02 0x03) (fresh true true)) =
    some [.buttonChanged .middle true, .scroll 1 (-1), .scroll (-3) (-2)] := by decide
/-- S2 as written, a direct call (R59). -/
theorem test_interpret_direct : (interpret 0xFF [(0x05, 0x00)] State.reset).out = [.move 5 0] := by decide
/-- 95 section 2.4: `83` then `86`. -/
theorem test_btn : look (fun t => (t.out, t.prevBtn)) (exec (.btn 0x86) (at' 0 false 0x83 [])) =
    some ([.buttonChanged .left false, .buttonChanged .right true], 0x86) := by decide
/-- 95 section 2.4, the other assignment of the open masks: `85` then `82`. -/
theorem test_btn_masks : look (fun t => t.out) (exec (.btn 0x82)
    { at' 0 false 0x85 [] with cfg := { Config.ofInputs false false with maskOrder := .middleBit0 } }) =
    some [.buttonChanged .left true, .buttonChanged .middle true, .buttonChanged .right false] := by decide
/-- R94's worked example. -/
theorem test_mode : look (fun t => t.scroll) (exec (.mode 0x85) (fresh true false)) = some true ∧
    look (fun t => t.scroll) (exec (.mode 0x87) (fresh true false)) = some false := by decide
/-- 95 section 2.6, direct call: the one value whose sign is not reversed, and dx not negated. -/
theorem test_move : look (fun t => t.out) (exec (.move 0x80 0x81) State.reset) = some [.move (-128) 127] ∧
    look (fun t => t.out) (exec (.move 0x00 0x80) State.reset) = some [.move 0 (-128)] := by decide
/-- R103's worked example. -/
theorem test_scroll : look (fun t => t.out) (exec (.scroll 0x03 0xFF) State.reset) =
    some [.scroll (-1) 3] := by decide
theorem test_scrollInv : look (fun t => t.out) (exec (.scrollInv 0x03 0xFF) State.reset) =
    some [.scroll 1 (-3)] := by decide
/-- R105, in scroll mode. -/
theorem test_pairZero : look (fun t => t.out) (exec .pairZero (fresh true true)) = some [] := by decide
/-- 95 section 2.10: modulo 8 the count goes from 7 to 0. -/
theorem test_count_wraps : nextCount { Config.ofInputs false false with cntModulus := some 8 } 7 = 0 := by decide
/-- 95 section 2.10: a partial frame is lost at a restart, and nothing is emitted. -/
theorem test_restart : look (fun t => (t.len, t.prevBtn, t.cfg.scrollEmu, t.out))
    (step { at' 1 false 0x83 [0x83, 0x05] with input := [.restart true false] }) =
    some (0, 0xFF, true, []) := by decide
theorem test_idle : seen (step State.reset) = some (0, 0, false, 0xFF, []) := by decide
/-- 95 section 2.10, event words. -/
theorem test_eventWord : eventWord (Config.ofInputs false false) (.move 1 (-2)) = 0x001FE#18 ∧
    eventWord (Config.ofInputs false false) (.scroll (-1) 1) = 0x1FF01#18 ∧
    eventWord (Config.ofInputs false false) (.buttonChanged .left true) = 0x20401#18 ∧
    eventWord (Config.ofInputs false false) (.buttonChanged .right false) = 0x20100#18 := by decide
/-- The second writing of R65 on a row of S4. -/
theorem test_rules_feed : (Rules.feed (Config.ofInputs false false) ⟨[0x87, 0x01, 0xFE, 0x03], 3, true, 0x87⟩ 0xFC) =
    (⟨[], 4, true, 0x87⟩, [.move 1 2, .move 3 4]) := by decide

/-! ### Witnesses: states and operands that meet the hypotheses of each obligation -/

/-- Wide, three bytes held (95 section 2.3, row 8): meets R17. -/
def wideThree : State := at' 2 true 0x87 [0x87, 0x01, 0xFE]
/-- Wide, four bytes held (95 section 2.3, row 11): one byte short of complete, meets R17. -/
def wideFour : State := at' 3 true 0x87 [0x87, 0x01, 0xFE, 0x03]
/-- Narrow, two bytes held (95 section 2.3, row 9): one byte short of complete, meets R17. -/
def narrowTwo : State := at' 1 false 0xFF [0x87, 0x05]
/-- Idle with a count of 4 (95 section 2.2, row 3). -/
def idleFour : State := at' 4 true 0x87 []

theorem witness_inv_wideThree : BufferInv wideThree :=
  ⟨by decide, by decide, by decide, fun _ _ => rfl⟩
theorem witness_inv_wideFour : BufferInv wideFour :=
  ⟨by decide, by decide, by decide, fun _ _ => rfl⟩
theorem witness_inv_narrowTwo : BufferInv narrowTwo :=
  ⟨by decide, by decide, by decide, fun _ _ => rfl⟩
theorem witness_inv_idleFour : BufferInv idleFour :=
  ⟨by decide, by decide, by decide, fun _ h => absurd h (by decide)⟩
theorem witness_inv_reset : BufferInv State.reset :=
  ⟨by decide, by decide, by decide, fun _ h => absurd h (by decide)⟩

theorem witness_StepRunsTheDecodedByte :
    ({ State.reset with input := [.byte 0x87] }).input = .byte 0x87 :: [] ∧
    decode .fed [0x87] = .ok (.sync true true true) := ⟨rfl, rfl⟩
theorem witness_StepHoldsWithNothingOffered : State.reset.input = [] := rfl
theorem witness_DecodeOfEncode : (Instr.frame3 false true true 0x05 0xFE).wellFormed = true ∧
    (Instr.frame3 false true true 0x05 0xFE).standsAt (.frame false) ∧
    (Instr.dataComplete 0x05).wellFormed = true ∧ (Instr.dataComplete 0x05).standsAt (.payload 4 true) :=
  ⟨rfl, rfl, rfl, 4, true, rfl, by decide, rfl⟩
theorem witness_EncodeOfDecode : decode (.pair true true) [0x00, 0x80] = .ok (.scrollInv 0x00 0x80) := rfl
theorem witness_PlacedFrameIsRun_24 : (24 = 24 ∨ 24 = 40) ∧
    decodeTableWord 24 0x800000 = some (.frame3 false false false 0x00 0x00) := by decide
theorem witness_PlacedFrameIsRun_40 : (40 = 24 ∨ 40 = 40) ∧
    decodeTableWord 40 0x87FF00FF7F = some (.frame5 true true true 0xFF 0x00 0xFF 0x7F) := by decide
theorem witness_SyncOpensFrame : wideFour.len < Rules.frameWidth wideFour.wide := by decide
theorem witness_SyncFlushesBuffer_complete :
    (at' 4 true 0xFF [0x87, 1, 2, 3, 4]).len = Rules.frameWidth (at' 4 true 0xFF [0x87, 1, 2, 3, 4]).wide := by
  decide
theorem witness_SyncFlushesBuffer_incomplete : narrowTwo.len ≠ Rules.frameWidth narrowTwo.wide := by decide
theorem witness_MidFrameSyncSelectsNarrow : BufferInv wideFour ∧ wideFour.cfg.cntModulus = none ∧
    Rules.SyncByte 0x80 ∧ 1 ≤ wideFour.len := ⟨witness_inv_wideFour, rfl, by decide, by decide⟩
theorem witness_MidFrameSyncSelectsNarrow_wide : BufferInv idleFour ∧ idleFour.cfg.cntModulus = none ∧
    Rules.SyncByte 0x87 ∧ look (fun t => t.wide) (deliver 0x87 idleFour) = some true :=
  ⟨witness_inv_idleFour, rfl, by decide, by decide⟩
theorem witness_LeadingBytesChooseFirstDialect : (Config.ofInputs true true).cntModulus = none ∧
    (∀ d ∈ [0x11#8, 0x22, 0x33, 0x88], Rules.DataByte d) ∧ Rules.SyncByte 0x87 := by decide
theorem witness_SyncAfterSyncDropsFrame : wideFour.len < Rules.frameWidth wideFour.wide ∧
    Rules.SyncByte 0x87 ∧ Rules.SyncByte 0x80 := by decide
theorem witness_SyncTestComesFirst : Rules.SyncByte 0x80 ∧ Rules.SyncByte 0x87 ∧
    Rules.DataByte 0x7F ∧ Rules.DataByte 0x88 := by decide
theorem witness_DiscardCountsOnly : Rules.DataByte 0x88 ∧ Rules.DataByte 0x7F ∧ idleFour.len = 0 := by decide
theorem witness_AppendStoresByte : Rules.DataByte 0xFC ∧ 1 ≤ wideThree.len ∧
    wideThree.len + 1 < Rules.frameWidth wideThree.wide := by decide
theorem witness_CompleteInterpretsFrame : Rules.DataByte 0xFC ∧
    (1 ≤ wideFour.len ∧ wideFour.len + 1 = Rules.frameWidth wideFour.wide) ∧
    (1 ≤ narrowTwo.len ∧ narrowTwo.len + 1 = Rules.frameWidth narrowTwo.wide) := by decide
theorem witness_CompleteRunsFrameRow : BufferInv narrowTwo ∧ BufferInv wideFour ∧ Rules.DataByte 0x00 ∧
    1 ≤ narrowTwo.len ∧ narrowTwo.len + 1 = Rules.frameWidth narrowTwo.wide ∧
    1 ≤ wideFour.len ∧ wideFour.len + 1 = Rules.frameWidth wideFour.wide :=
  ⟨witness_inv_narrowTwo, witness_inv_wideFour, by decide, by decide, by decide, by decide, by decide⟩
theorem witness_DataRowsRunSelectedOperation :
    (idleFour.len < Rules.frameWidth idleFour.wide ∧ idleFour.len = 0) ∧
    (wideThree.len < Rules.frameWidth wideThree.wide ∧ 1 ≤ wideThree.len ∧
      wideThree.len + 1 < Rules.frameWidth wideThree.wide) ∧
    (wideFour.len < Rules.frameWidth wideFour.wide ∧ 1 ≤ wideFour.len ∧
      wideFour.len + 1 = Rules.frameWidth wideFour.wide) := by decide
theorem witness_ButtonsStoredOnCompletionOnly_completes : BufferInv narrowTwo ∧
    (Rules.DataByte 0x00 ∧ 1 ≤ narrowTwo.len ∧ narrowTwo.len + 1 = Rules.frameWidth narrowTwo.wide) :=
  ⟨witness_inv_narrowTwo, by decide⟩
theorem witness_ButtonsStoredOnCompletionOnly_other : BufferInv wideThree ∧
    ¬ (Rules.DataByte 0x00 ∧ 1 ≤ wideThree.len ∧ wideThree.len + 1 = Rules.frameWidth wideThree.wide) :=
  ⟨witness_inv_wideThree, by decide⟩
theorem witness_MoveNegatesDy : ¬ ((0x00 : Byte).toNat = 0 ∧ (0x80 : Byte).toNat = 0) ∧
    State.reset.scroll = false := by decide
theorem witness_ScrollSwapsFields (inv : Bool) : ¬ ((0x80 : Byte).toNat = 0 ∧ (0x00 : Byte).toNat = 0) ∧
    ({ fresh true inv with scroll := true }).scroll = true ∧
    ({ fresh true inv with scroll := true }).cfg.scrollInv = inv := ⟨by decide, rfl, rfl⟩
theorem witness_NegationLaws : (0x80 : Byte).toNat = 0x80 ∧ (0x81 : Byte).toNat ≠ 0x80 := by decide
theorem witness_RestartIsReset :
    ({ wideFour with input := [.restart true true, .byte 0x83] }).input =
      .restart true true :: [.byte 0x83] := rfl
theorem witness_FirstFrameReportsHeldButtons : Rules.SyncByte 0x80 ∧ Rules.DataByte 0x7F ∧
    Rules.DataByte 0x88 := by decide
theorem witness_StepKeepsInvariant : BufferInv wideThree ∧ step wideThree = .next wideThree :=
  ⟨witness_inv_wideThree, rfl⟩
theorem witness_CountFollowsBytes : wideFour.cfg.cntModulus = none ∧
    (∀ d ∈ [0x00#8, 0xFF], Rules.DataByte d) ∧ Rules.SyncByte 0x80 := by decide
theorem witness_IdleAfterSyncCountsTwo : (Config.ofInputs false true).cntModulus = none ∧
    (∃ b ∈ [0x87#8, 0x05, 0x00], Rules.SyncByte b) ∧
    (deliverAll [0x87, 0x05, 0x00] (fresh false true)).map (fun t => (t.len, t.cnt)) = some (0, 2) := by decide
theorem witness_ConfigurationIsConstant : exec .pairZero wideFour = .next wideFour := rfl
theorem witness_FeedEventsInRange : BufferInv narrowTwo := witness_inv_narrowTwo
theorem witness_EventWordsAreDistinct : ((-128 : Int) ≤ -128 ∧ (-128 : Int) ≤ 127) ∧
    ((-128 : Int) ≤ 127 ∧ (127 : Int) ≤ 127) := by decide
theorem witness_FeedAgreesWithListForm : wideFour.len ≤ 4 ∧
    ((at' 4 true 0xFF [0x87, 1, 2, 3, 4]).len = 5 ∧ Rules.SyncByte 0x87) := by decide
/-- Two states that differ in a stale entry, in bits 7:3 of `PREV_BTN`, in `WIDE` and in a count above 5. -/
theorem witness_HiddenStateIsUnobservable :
    let s := at' 5 false 0xFF []
    let t := { at' 9 true 0x87 [] with buf := #v[1, 2, 3, 4, 5] }
    BufferInv s ∧ BufferInv t ∧ Alike s t :=
  ⟨⟨by decide, by decide, by decide, fun _ h => absurd h (by decide)⟩,
   ⟨by decide, by decide, by decide, fun _ h => absurd h (by decide)⟩,
   ⟨rfl, by decide, by decide, by decide, by decide, rfl, rfl⟩⟩
theorem witness_ControlFollowsTable : BufferInv wideFour ∧ wideFour.cfg.cntModulus = none ∧
    Rules.SyncByte 0x87 ∧ Rules.DataByte 0x00 := ⟨witness_inv_wideFour, rfl, by decide, by decide⟩
theorem witness_SyncResynchronizes_wide : idleFour.len < Rules.frameWidth idleFour.wide ∧
    Rules.SyncByte 0x87 ∧ (∀ d ∈ [0x01#8, 0x02, 0x03, 0x04], Rules.DataByte d) ∧
    [0x01#8, 0x02, 0x03, 0x04].length + 1 =
      Rules.frameWidth (decide (Rules.counted idleFour.cfg idleFour.cnt = 5)) := by decide
theorem witness_SyncResynchronizes_narrow : wideFour.len < Rules.frameWidth wideFour.wide ∧
    Rules.SyncByte 0x80 ∧ (∀ d ∈ [0x88#8, 0x7F], Rules.DataByte d) ∧
    [0x88#8, 0x7F].length + 1 =
      Rules.frameWidth (decide (Rules.counted wideFour.cfg wideFour.cnt = 5)) := by decide
theorem witness_WideDeviceMetInNarrow : State.reset.len < Rules.frameWidth State.reset.wide ∧
    State.reset.cfg.cntModulus = none ∧ State.reset.cnt ≠ 4 ∧ Rules.SyncByte 0x87 ∧
    (∀ d ∈ [0x03#8, 0x01, 0x04, 0x01], Rules.DataByte d) := by decide
theorem witness_NarrowDeviceMetInWide : idleFour.len < Rules.frameWidth idleFour.wide ∧
    idleFour.cfg.cntModulus = none ∧ idleFour.cnt = 4 ∧ Rules.SyncByte 0x87 ∧ Rules.DataByte 0x02 := by decide
theorem witness_LostByteCostsFrameAndHalf : idleFour.len < Rules.frameWidth idleFour.wide ∧
    idleFour.cfg.cntModulus = none ∧ idleFour.cnt = 4 ∧ Rules.SyncByte 0x87 ∧
    (∀ d ∈ [0x03#8, 0x03, 0x03, 0x04, 0x04, 0x04, 0x04], Rules.DataByte d) := by decide
theorem witness_WholeFramesAreAllDecoded_wide : idleFour.cfg.cntModulus = none ∧ idleFour.len = 0 ∧
    (idleFour.cnt = 4 ↔ true = true) ∧
    (∀ f ∈ [((0x87 : Byte), ([1, 2, 3, 4] : List Byte)), (0x83, [5, 6, 7, 8])],
      Rules.SyncByte f.1 ∧ f.2.length + 1 = Rules.frameWidth true ∧ ∀ d ∈ f.2, Rules.DataByte d) := by decide
theorem witness_WholeFramesAreAllDecoded_narrow : State.reset.cfg.cntModulus = none ∧
    State.reset.len = 0 ∧ (State.reset.cnt = 4 ↔ false = true) ∧
    (∀ f ∈ [((0x87 : Byte), ([1, 2] : List Byte)), (0x83, [5, 6])],
      Rules.SyncByte f.1 ∧ f.2.length + 1 = Rules.frameWidth false ∧ ∀ d ∈ f.2, Rules.DataByte d) := by decide
/-- The stream of 95 section 2.10: twelve data bytes, k = 3 and j = 1. -/
theorem witness_WrappingCounterSelectsWide : 3 ≤ 3 ∧ 1 ≤ 1 ∧ State.reset.cnt = 0 ∧
    (∀ d ∈ List.replicate 12 (0x01 : Byte), Rules.DataByte d) ∧
    (List.replicate 12 (0x01 : Byte)).length = 2 ^ 3 * 1 + 4 ∧ Rules.SyncByte 0x87 := by decide

end Sys2Proof.Tests
end

/-! Proofs about the block's state: what construction leaves, that the output is never read, and that
the differences R19 names cannot be observed. -/

namespace Sys2Proof.Machine

open Safety

/-! ### Construction -/

/-- Settles O31: each value is a field of `State.construct`. -/
theorem constructionValues : Obligations.ConstructionValues :=
  ⟨fun _ => ⟨rfl, rfl, rfl, rfl, rfl, rfl⟩, rfl⟩

/-! ### Feeding one byte -/

/-- What a delivered byte does to the state: the two branches of R65 under one name. -/
def feedByte (b : Byte) (s : State) : State := if isSync b then feedSync b s else feedData b s

theorem feedByte_of_sync {b : Byte} (hb : isSync b = true) (s : State) :
    feedByte b s = feedSync b s := if_pos hb

theorem feedByte_of_data {b : Byte} (hb : isSync b = false) (s : State) :
    feedByte b s = feedData b s := if_neg (by simp [hb])

theorem step_of_byte_eq_feedByte (s : State) (b : Byte) (rest : List Input)
    (h : s.input = .byte b :: rest) : step s = .next (feedByte b (s.setInput rest)) :=
  step_of_byte s b rest h

theorem deliverAll_cons_eq_feedByte (b : Byte) (bs : List Byte) (s : State) :
    deliverAll (b :: bs) s = deliverAll bs (feedByte b s) :=
  deliverAll_cons b bs s

theorem feedData_of_idle {s : State} (h : s.len = 0) (b : Byte) :
    feedData b s = discardByte b s := by
  rw [feedData_eq, if_pos h]

theorem feedData_of_full {s : State} (h0 : s.len ≠ 0) (h : s.len + 1 = Rules.frameWidth s.wide)
    (b : Byte) : feedData b s = completeData b s := by
  rw [feedData_eq, if_neg h0, if_pos h]

theorem feedData_of_short {s : State} (h0 : s.len ≠ 0) (h : s.len + 1 ≠ Rules.frameWidth s.wide)
    (b : Byte) : feedData b s = appendData b s := by
  rw [feedData_eq, if_neg h0, if_neg h]

/-- R17 (a) is kept by every byte. -/
theorem feedByte_len_lt_frameWidth {s : State} (h : s.len < Rules.frameWidth s.wide) (b : Byte) :
    (feedByte b s).len < Rules.frameWidth (feedByte b s).wide := by
  have pos : ∀ w, 1 < Rules.frameWidth w := by decide
  cases hb : isSync b with
  | true =>
    rw [feedByte_of_sync hb, feedSync_eq_of_incomplete b s h.ne]
    exact pos _
  | false =>
    rw [feedByte_of_data hb]
    by_cases h0 : s.len = 0
    · rw [feedData_of_idle h0]; exact h
    by_cases h1 : s.len + 1 = Rules.frameWidth s.wide
    · rw [feedData_of_full h0 h1, completeData_eq]
      exact Nat.zero_lt_of_lt (pos _)
    · rw [feedData_of_short h0 h1]
      exact Nat.lt_of_le_of_ne h h1

/-! ### The output is never read -/

/-- An operation that only appends to the output, and whose events and other effects are the same
whatever the output was (R22). -/
def OutputBlind (f : State → State) : Prop :=
  ∀ s : State, ∃ evs, (f s).out = s.out ++ evs ∧
    ∀ o, f { s with out := o } = { f s with out := o ++ evs }

theorem outputBlind_feedSync (b : Byte) : OutputBlind (feedSync b) := by
  intro s
  by_cases h : s.len = Rules.frameWidth s.wide
  · refine ⟨Rules.frameEvents s.cfg s.prevBtn s.buf[0] (bufPairs s), ?_, fun o => ?_⟩
    · rw [feedSync_eq_of_complete b s h]
    · rw [feedSync_eq_of_complete b s h, feedSync_eq_of_complete b { s with out := o } h]
      rfl
  · refine ⟨[], ?_, fun o => ?_⟩
    · rw [feedSync_eq_of_incomplete b s h, List.append_nil]
    · rw [feedSync_eq_of_incomplete b s h, feedSync_eq_of_incomplete b { s with out := o } h,
        List.append_nil]

theorem outputBlind_discardByte (b : Byte) : OutputBlind (discardByte b) :=
  fun s => ⟨[], by simp [discardByte], fun o => by simp [discardByte_eq]⟩

theorem outputBlind_appendData (b : Byte) : OutputBlind (appendData b) :=
  fun s => ⟨[], by simp [appendData_eq], fun o => by simp [appendData_eq]⟩

theorem outputBlind_completeData (b : Byte) : OutputBlind (completeData b) := by
  intro s
  let u := appendData b s
  refine ⟨Rules.frameEvents s.cfg s.prevBtn u.buf[0] (bufPairs u), ?_, fun o => ?_⟩
  · rw [completeData_eq]
  · rw [completeData_eq, completeData_eq]
    rfl

theorem outputBlind_feedData (b : Byte) : OutputBlind (feedData b) := by
  intro s
  by_cases h0 : s.len = 0
  · simpa only [feedData_of_idle, h0] using outputBlind_discardByte b s
  by_cases h1 : s.len + 1 = Rules.frameWidth s.wide
  · simpa only [feedData_of_full, h0, h1, ne_eq, not_false_eq_true]
      using outputBlind_completeData b s
  · simpa only [feedData_of_short, h0, h1, ne_eq, not_false_eq_true]
      using outputBlind_appendData b s

theorem outputBlind_feedByte (b : Byte) : OutputBlind (feedByte b) := by
  intro s
  cases hb : isSync b with
  | true => simpa only [feedByte_of_sync hb] using outputBlind_feedSync b s
  | false => simpa only [feedByte_of_data hb] using outputBlind_feedData b s

theorem input_cases (q : List Input) :
    q = [] ∨ (∃ b rest, q = .byte b :: rest) ∨ ∃ emu inv rest, q = .restart emu inv :: rest := by
  rcases q with _ | ⟨b | ⟨emu, inv⟩, rest⟩
  · exact .inl rfl
  · exact .inr (.inl ⟨b, rest, rfl⟩)
  · exact .inr (.inr ⟨emu, inv, rest, rfl⟩)

/-- Settles O41: holding and restarting append nothing, and feeding a byte is blind to the output. -/
theorem outputIsNeverRead : Obligations.OutputIsNeverRead := by
  intro s o
  obtain hin | ⟨b, rest, hin⟩ | ⟨emu, inv, rest, hin⟩ := input_cases s.input
  · refine ⟨s, [], step_of_nil s hin, (List.append_nil _).symm, ?_⟩
    rw [List.append_nil]
    exact step_of_nil { s with out := o } hin
  · obtain ⟨evs, hout, hblind⟩ := outputBlind_feedByte b (s.setInput rest)
    refine ⟨_, evs, step_of_byte_eq_feedByte s b rest hin, hout, ?_⟩
    rw [← hblind]
    exact step_of_byte_eq_feedByte { s with out := o } b rest hin
  · refine ⟨_, [], step_of_restart s emu inv rest hin, (List.append_nil _).symm, ?_⟩
    rw [List.append_nil]
    exact step_of_restart { s with out := o } emu inv rest hin

end Sys2Proof.Machine

namespace Sys2Proof.Safety

open Machine

/-! ### What R19 calls unobservable -/

/-- The level of a button shows in bits 2:0 of the button byte alone. -/
theorem pressed_congr {p q : Byte} (h : p &&& 0x07 = q &&& 0x07) (c : Config) (id : ButtonId) :
    Rules.pressed c id p = Rules.pressed c id q := by
  have masked : ∀ k < 3, ∀ v : Byte, v.toNat.testBit k = (v &&& 0x07).toNat.testBit k := by decide
  have bit : Rules.buttonBit c id < 3 := by
    cases c with | mk emu inv order modulus =>
    cases order <;> cases id <;> simp [Rules.buttonBit]
  rw [Rules.pressed, Rules.pressed, masked _ bit p, masked _ bit q, h]

/-- A frame's events read bits 2:0 of `PREV_BTN` alone (R19 (b)). -/
theorem frameEvents_congr_prev {p q : Byte} (h : p &&& 0x07 = q &&& 0x07) (c : Config) (b : Byte)
    (ps : List (Byte × Byte)) : Rules.frameEvents c p b ps = Rules.frameEvents c q b ps := by
  simp only [Rules.frameEvents, Rules.buttonEvents, Rules.buttonEvent, pressed_congr h]

/-- After a byte from `s` to `s'` and from `t` to `t'`, the two states are alike and the same events
have been appended to both outputs. -/
def StayAlike (s t s' t' : State) : Prop :=
  Alike s' t' ∧ ∃ evs, s'.out = s.out ++ evs ∧ t'.out = t.out ++ evs

section
variable {s t : State} (h : Alike s t)
include h

/-- One more byte keeps counts alike: both stay at 5 or more, or they were equal (R19 (d)). -/
theorem Alike.counted_alike :
    Rules.counted s.cfg s.cnt = Rules.counted t.cfg t.cnt ∨
      (s.cfg.cntModulus = none ∧ 5 ≤ Rules.counted s.cfg s.cnt ∧
        5 ≤ Rules.counted t.cfg t.cnt) := by
  rcases h.cnt with heq | ⟨hnone, hs, ht⟩
  · exact .inl (by rw [heq, h.cfg])
  · right
    simp only [← h.cfg, Rules.counted, hnone, true_and]
    omega

/-- Alike counts select the same dialect: a count of 5 or more is at least 6 with the sync byte. -/
theorem Alike.counted_eq_five_iff :
    Rules.counted s.cfg s.cnt = 5 ↔ Rules.counted t.cfg t.cnt = 5 := by
  rcases h.cnt with heq | ⟨hnone, hs, ht⟩
  · rw [heq, h.cfg]
  · simp only [← h.cfg, Rules.counted, hnone]
    omega

theorem Alike.stays_feedSync (b : Byte) (hs : s.len ≠ Rules.frameWidth s.wide)
    (ht : t.len ≠ Rules.frameWidth t.wide) :
    StayAlike s t (feedSync b s) (feedSync b t) := by
  rw [feedSync_eq_of_incomplete b s hs, feedSync_eq_of_incomplete b t ht]
  have entry0 : ∀ i, (hi : i < 5) → i < 1 →
      (s.buf.setIfInBounds 0 b)[i] = (t.buf.setIfInBounds 0 b)[i] := by
    intro i hi h1
    simp [Nat.lt_one_iff.1 h1]
  exact ⟨⟨rfl, entry0, h.prev, fun _ => decide_eq_decide.2 h.counted_eq_five_iff, .inl rfl, h.cfg,
    h.input⟩, [], by simp, by simp⟩

theorem Alike.stays_discardByte (b : Byte) :
    StayAlike s t (discardByte b s) (discardByte b t) := by
  simp only [discardByte_eq]
  exact ⟨⟨h.len, h.held, h.prev, h.wide, h.counted_alike, h.cfg, h.input⟩, [], by simp, by simp⟩

theorem Alike.stays_appendData (b : Byte) (h1 : 1 ≤ s.len) :
    StayAlike s t (appendData b s) (appendData b t) := by
  simp only [appendData_eq, ← h.len]
  have held : ∀ i, (hi : i < 5) → i < s.len + 1 →
      (s.buf.setIfInBounds s.len b)[i] = (t.buf.setIfInBounds s.len b)[i] := by
    intro i hi hlt
    rcases Nat.lt_succ_iff_lt_or_eq.1 hlt with hold | rfl
    · simp [hold.ne', h.held i hi hold]
    · simp
  exact ⟨⟨rfl, held, h.prev, fun _ => h.wide h1, h.counted_alike, h.cfg, h.input⟩, [], by simp, by simp⟩

/-- A complete buffer holds no stale entry, so alike states hold the same frame in it (R19 (a)). -/
theorem Alike.frame_eq (hlen : s.len = Rules.frameWidth s.wide) :
    s.buf[0] = t.buf[0] ∧ bufPairs s = bufPairs t := by
  have three : 3 ≤ s.len := by rw [hlen]; cases s.wide <;> decide
  have hw : s.wide = t.wide := h.wide (by omega)
  have h0 : s.buf[0] = t.buf[0] := h.held 0 (by decide) (by omega)
  have h1 : s.buf[1] = t.buf[1] := h.held 1 (by decide) (by omega)
  have h2 : s.buf[2] = t.buf[2] := h.held 2 (by decide) (by omega)
  refine ⟨h0, ?_⟩
  rw [bufPairs, bufPairs, ← hw, h1, h2]
  cases hwide : s.wide with
  | false => rfl
  | true =>
    have five : s.len = 5 := by rw [hlen, hwide]; rfl
    rw [h.held 3 (by decide) (by omega), h.held 4 (by decide) (by omega)]

/-- Interpreting and clearing a complete buffer. -/
theorem Alike.stays_interpretBuf_setLen (hlen : s.len = Rules.frameWidth s.wide) :
    StayAlike s t ((interpretBuf s).setLen 0) ((interpretBuf t).setLen 0) := by
  obtain ⟨hbtn, hpairs⟩ := h.frame_eq hlen
  simp only [interpretBuf_eq, ← hbtn, ← hpairs, ← h.cfg, ← frameEvents_congr_prev h.prev]
  exact ⟨⟨rfl, fun _ _ hi => absurd hi (Nat.not_lt_zero _), rfl,
    fun h1 => absurd h1 (Nat.not_succ_le_zero _), h.cnt, rfl, h.input⟩, _, rfl, rfl⟩

theorem Alike.stays_completeData (b : Byte) (h1 : 1 ≤ s.len)
    (hfull : s.len + 1 = Rules.frameWidth s.wide) :
    StayAlike s t (completeData b s) (completeData b t) :=
  (h.stays_appendData b h1).1.stays_interpretBuf_setLen hfull

theorem Alike.stays_feedData (b : Byte) : StayAlike s t (feedData b s) (feedData b t) := by
  by_cases h0 : s.len = 0
  · rw [feedData_of_idle h0, feedData_of_idle (h.len ▸ h0)]
    exact h.stays_discardByte b
  have h1 : 1 ≤ s.len := Nat.one_le_iff_ne_zero.2 h0
  have h0' : t.len ≠ 0 := h.len ▸ h0
  have hfull : t.len + 1 = Rules.frameWidth t.wide ↔ s.len + 1 = Rules.frameWidth s.wide := by
    rw [h.len, h.wide h1]
  by_cases hs : s.len + 1 = Rules.frameWidth s.wide
  · rw [feedData_of_full h0 hs, feedData_of_full h0' (hfull.2 hs)]
    exact h.stays_completeData b h1 hs
  · rw [feedData_of_short h0 hs, feedData_of_short h0' (mt hfull.1 hs)]
    exact h.stays_appendData b h1

/-- One byte keeps alike states alike and appends the same events to both outputs. -/
theorem Alike.stays_feedByte (b : Byte) (hs : s.len < Rules.frameWidth s.wide)
    (ht : t.len < Rules.frameWidth t.wide) :
    StayAlike s t (feedByte b s) (feedByte b t) := by
  cases hb : isSync b with
  | true => rw [feedByte_of_sync hb, feedByte_of_sync hb]; exact h.stays_feedSync b hs.ne ht.ne
  | false => rw [feedByte_of_data hb, feedByte_of_data hb]; exact h.stays_feedData b

end

/-- A stream keeps alike states alike and appends the same events to both outputs. -/
theorem deliverAll_stayAlike (bs : List Byte) (s t : State) (hs : s.len < Rules.frameWidth s.wide)
    (ht : t.len < Rules.frameWidth t.wide) (h : Alike s t) :
    ∃ s' t', deliverAll bs s = some s' ∧ deliverAll bs t = some t' ∧ StayAlike s t s' t' := by
  induction bs generalizing s t with
  | nil => exact ⟨s, t, rfl, rfl, h, [], by simp, by simp⟩
  | cons b bs ih =>
    obtain ⟨h₁, evs₁, hs₁, ht₁⟩ := h.stays_feedByte b hs ht
    obtain ⟨s', t', hrun, hrun', h₂, evs₂, hs₂, ht₂⟩ :=
      ih _ _ (feedByte_len_lt_frameWidth hs b) (feedByte_len_lt_frameWidth ht b) h₁
    refine ⟨s', t', ?_, ?_, h₂, evs₁ ++ evs₂, ?_, ?_⟩
    · rw [deliverAll_cons_eq_feedByte, hrun]
    · rw [deliverAll_cons_eq_feedByte, hrun']
    · rw [hs₂, hs₁, List.append_assoc]
    · rw [ht₂, ht₁, List.append_assoc]

/-- Settles O44, by induction on the stream: of R17 only the bound on `LEN` is needed, so that no sync
byte meets a complete buffer. -/
theorem hiddenStateIsUnobservable : Obligations.HiddenStateIsUnobservable := by
  intro bs s t hs ht h
  obtain ⟨s', t', hrun, hrun', halike, evs, hout, hout'⟩ :=
    deliverAll_stayAlike bs s t hs.lenBound ht.lenBound h
  exact ⟨s', t', evs, hrun, hrun', halike, hout, hout'⟩

end Sys2Proof.Safety

/-! Proofs about the encoding: a step runs the instruction the queued byte decodes to. -/

namespace Sys2Proof.Machine

/-- At the position of a fed byte the decoder rejects no byte (R54, R58). -/
theorem decode_fed_singleton (b : Byte) : decode .fed [b] = .ok (decodeFed b) := rfl

/-- SYNC and the five DATA patterns admit every value of their fields (R46, R47). -/
theorem decodeFed_wellFormed (b : Byte) : (decodeFed b).wellFormed = true := by
  unfold decodeFed
  split_ifs <;> rfl

theorem step_of_byte_eq_exec_decodeFed (s : State) (b : Byte) (rest : List Input)
    (h : s.input = .byte b :: rest) : step s = exec (decodeFed b) (s.setInput rest) :=
  (step_of_byte s b rest h).trans (exec_decodeFed b _).symm

/-- Settles O1: the decoder answers `decodeFed b` and nothing else, and the step is its `exec`. -/
theorem stepRunsTheDecodedByte : Obligations.StepRunsTheDecodedByte := by
  intro s b rest hin
  refine ⟨fun i hi => ?_, decodeFed b, decode_fed_singleton b, decodeFed_wellFormed b⟩
  obtain rfl : decodeFed b = i := Except.ok.inj hi
  exact step_of_byte_eq_exec_decodeFed s b rest hin

end Sys2Proof.Machine


/-! Proofs about the sync byte: it opens a frame whatever the buffer holds, and a data byte never does. -/

namespace Sys2Proof.Machine

open Safety

theorem deliver_eq_feedByte (b : Byte) (s : State) : deliver b s = .next (feedByte b s) :=
  deliver_eq b s

theorem feedByte_of_syncByte {b : Byte} (hb : Rules.SyncByte b) (s : State) :
    feedByte b s = feedSync b s := feedByte_of_sync ((isSync_iff b).2 hb) s

theorem feedByte_of_dataByte {b : Byte} (hb : Rules.DataByte b) (s : State) :
    feedByte b s = feedData b s := feedByte_of_data ((isSync_eq_false_iff b).2 hb) s

/-! ### A sync byte after a sync byte -/

/-- A sync byte that meets a cleared count is not the fifth byte, whatever `CNT_MODULUS` is (R68). -/
theorem counted_zero_ne_five (c : Config) : Rules.counted c 0 ≠ 5 := by
  unfold Rules.counted
  split
  case h_1 => decide
  case h_2 m _ =>
    have : (0 + 1) % m ≤ 0 + 1 := Nat.mod_le _ _
    omega

/-- The second of two sync bytes overwrites the first, and nothing is interpreted (R73): the first leaves
`LEN = 1`, short of either width, and `CNT = 0`. -/
theorem feedSync_feedSync_eq (b₁ b₂ : Byte) (s : State) (h : s.len ≠ Rules.frameWidth s.wide) :
    feedSync b₂ (feedSync b₁ s) =
      { s with buf := (s.buf.setIfInBounds 0 b₁).setIfInBounds 0 b₂, len := 1, cnt := 0,
               wide := false } := by
  have short : ∀ w, 1 ≠ Rules.frameWidth w := by decide
  rw [feedSync_eq_of_incomplete b₁ s h, feedSync_eq_of_incomplete b₂ _ (short _),
    decide_eq_false (counted_zero_ne_five s.cfg)]

/-- Settles O13: the two syncs are one record update that leaves output and `PREV_BTN` as they were. -/
theorem syncAfterSyncDropsFrame : Obligations.SyncAfterSyncDropsFrame := by
  intro s b₁ b₂ hlen h₁ h₂
  refine ⟨feedSync b₂ (feedSync b₁ s), ?_, ?_⟩
  · rw [deliverAll_cons_eq_feedByte, deliverAll_cons_eq_feedByte, feedByte_of_syncByte h₁,
      feedByte_of_syncByte h₂, deliverAll]
  · rw [feedSync_feedSync_eq b₁ b₂ s hlen.ne]
    exact ⟨rfl, rfl, rfl, Vector.getElem_setIfInBounds_self _, rfl, rfl⟩

/-! ### The sync test comes first -/

/-- SYNC writes entry 0 and leaves one byte held, whether or not the buffer was complete (R69). -/
theorem feedSync_buf_len (b : Byte) (s : State) :
    (feedSync b s).buf = s.buf.setIfInBounds 0 b ∧ (feedSync b s).len = 1 := by
  by_cases h : s.len = Rules.frameWidth s.wide
  · rw [feedSync_eq_of_complete b s h]
    exact ⟨rfl, rfl⟩
  · rw [feedSync_eq_of_incomplete b s h]
    exact ⟨rfl, rfl⟩

/-- A data byte that is stored is stored at `LEN`, which is not 0 then (R82, R83). -/
theorem feedData_buf_zero (b : Byte) (s : State) : (feedData b s).buf[0] = s.buf[0] := by
  by_cases h0 : s.len = 0
  · rw [feedData_of_idle h0, discardByte_eq]
  have happend : (appendData b s).buf[0] = s.buf[0] := Vector.getElem_setIfInBounds_ne _ h0
  by_cases h1 : s.len + 1 = Rules.frameWidth s.wide
  · rw [feedData_of_full h0 h1, completeData_eq]
    exact happend
  · rw [feedData_of_short h0 h1]
    exact happend

/-- Settles O14: SYNC writes entry 0 in every state, and a data byte leaves entry 0 in every state. -/
theorem syncTestComesFirst : Obligations.SyncTestComesFirst := by
  intro s b
  refine ⟨feedByte b s, deliver_eq_feedByte b s, fun hb => ?_, fun hb => ?_⟩
  · obtain ⟨hbuf, hlen⟩ := feedSync_buf_len b s
    simp only [feedByte_of_syncByte hb, hbuf]
    exact ⟨hlen, Vector.getElem_setIfInBounds_self _,
      fun i hi h0 => Vector.getElem_setIfInBounds_ne hi h0.symm⟩
  · rw [feedByte_of_dataByte hb]
    exact ⟨feedData_buf_zero b s, fun h0 => by rw [feedData_of_idle h0, discardByte_eq, h0]⟩

end Sys2Proof.Machine

/-! Proofs about the data operations: what counting a data byte and storing one write, and nothing else. -/

namespace Sys2Proof.Machine

open Safety

theorem exec_dataDiscard (d : Byte) (s : State) :
    exec (.dataDiscard d) s = .next { s with cnt := Rules.counted s.cfg s.cnt } :=
  congrArg Host.Outcome.next (discardByte_eq d s)

theorem exec_dataAppend (d : Byte) (s : State) :
    exec (.dataAppend d) s =
      .next { s with cnt := Rules.counted s.cfg s.cnt, buf := s.buf.setIfInBounds s.len d,
                     len := s.len + 1 } :=
  congrArg Host.Outcome.next (appendData_eq d s)

/-- Settles O15: the state DATA.DISCARD leaves is one update of `CNT`, in which the byte does not occur. -/
theorem discardCountsOnly : Obligations.DiscardCountsOnly := by
  intro d s _ _
  refine ⟨⟨_, exec_dataDiscard d s, rfl, rfl, rfl, rfl, rfl, rfl, rfl, rfl, rfl⟩, fun d' _ => ?_⟩
  rw [exec_dataDiscard, exec_dataDiscard]

/-- The library's read-after-write of a vector, with the equation the way round R82 and R83 are stated. -/
theorem getElem_buf_setIfInBounds (buf : Vector Byte 5) (n : Nat) (d : Byte) (i : Nat) (h : i < 5) :
    (buf.setIfInBounds n d)[i] = if i = n then d else buf[i] := by
  rw [Vector.getElem_setIfInBounds h]
  exact if_congr eq_comm rfl rfl

/-- Settles O16: DATA.APPEND writes the entry at the old `LEN`, `LEN` and `CNT`. -/
theorem appendStoresByte : Obligations.AppendStoresByte := by
  intro d s _ _ _
  exact ⟨_, exec_dataAppend d s, rfl, rfl, getElem_buf_setIfInBounds s.buf s.len d,
    rfl, rfl, rfl, rfl, rfl, rfl⟩

end Sys2Proof.Machine

/-! Proofs about the motion operations: each emits one event made from its operands, and nothing else. -/

namespace Sys2Proof.Machine

open Safety

theorem exec_move (x y : Byte) (s : State) :
    exec (.move x y) s =
      .next (s.emit (.move (Rules.signed x.toNat) (Rules.signed (Rules.negated y)))) := by
  rw [← plainField_eq, ← negatedField_eq]
  rfl

theorem exec_scroll (x y : Byte) (s : State) :
    exec (.scroll x y) s =
      .next (s.emit (.scroll (Rules.signed y.toNat) (Rules.signed x.toNat))) := by
  rw [← plainField_eq, ← plainField_eq]
  rfl

theorem exec_scrollInv (x y : Byte) (s : State) :
    exec (.scrollInv x y) s =
      .next (s.emit (.scroll (Rules.signed (Rules.negated y)) (Rules.signed (Rules.negated x)))) := by
  rw [← negatedField_eq, ← negatedField_eq]
  rfl

/-- An instruction whose whole effect is one `emit` appends that event and leaves every other field (R9). -/
theorem exec_frame_of_emit {i : Instr} {s : State} {e : Event} (h : exec i s = .next (s.emit e)) :
    ∃ t, exec i s = .next t ∧ t.out = s.out ++ [e] ∧
      t.buf = s.buf ∧ t.len = s.len ∧ t.cnt = s.cnt ∧ t.wide = s.wide ∧ t.prevBtn = s.prevBtn ∧
      t.cfg = s.cfg ∧ t.scroll = s.scroll ∧ t.input = s.input :=
  ⟨s.emit e, h, s.emit_out e, s.emit_buf e, s.emit_len e, s.emit_cnt e, s.emit_wide e,
    s.emit_prevBtn e, s.emit_cfg e, s.emit_scroll e, s.emit_input e⟩

/-- Settles O27: MOVE is one `emit`, in every state and for every pair. -/
theorem moveNegatesDy : Obligations.MoveNegatesDy :=
  fun x y s _ _ => exec_frame_of_emit (exec_move x y s)

/-- Settles O28: SCROLL and SCROLL.INV are one `emit` each, in every state and for every pair. -/
theorem scrollSwapsFields : Obligations.ScrollSwapsFields :=
  fun x y s _ _ => ⟨fun _ => exec_frame_of_emit (exec_scroll x y s),
    fun _ => exec_frame_of_emit (exec_scrollInv x y s)⟩

end Sys2Proof.Machine

/-! Proofs about exceptions: there are none, and the block is passive between the bytes it is fed. -/

namespace Sys2Proof.Machine

/-- Every arm of `exec` is one total operation on the state, well-formed operands or not (R58). -/
theorem exists_exec_eq_next (i : Instr) (s : State) : ∃ t, exec i s = .next t := by
  cases i <;> exact ⟨_, rfl⟩

/-- Holding, feeding a byte and restarting all answer a state (R115). -/
theorem exists_step_eq_next (s : State) : ∃ t, step s = .next t := by
  rcases hin : s.input with _ | ⟨b | ⟨emu, inv⟩, rest⟩
  · exact ⟨s, step_of_nil s hin⟩
  · exact ⟨feedByte b (s.setInput rest), step_of_byte_eq_feedByte s b rest hin⟩
  · exact ⟨restart emu inv rest s, step_of_restart s emu inv rest hin⟩

/-- Settles O2: an empty queue is the first case of `step`. -/
theorem stepHoldsWithNothingOffered : Obligations.StepHoldsWithNothingOffered :=
  step_of_nil

/-- Settles O3, by the three cases of a step and the arms of `exec`. -/
theorem nothingEverStops : Obligations.NothingEverStops :=
  ⟨exists_step_eq_next, exists_exec_eq_next⟩

end Sys2Proof.Machine

/-! Proofs about the list form: the machine's `feed` is the rules' `feed` over the held bytes. -/

namespace Sys2Proof.Safety

open Machine

/-! ### The held bytes -/

theorem toList_eq_entries (v : Vector Byte 5) : v.toList = [v[0], v[1], v[2], v[3], v[4]] := by
  obtain ⟨⟨l⟩, h⟩ := v
  match l, h with
  | [_, _, _, _, _], _ => rfl

theorem listForm_buf_length {s : State} (h : s.len ≤ 5) : (listForm s).buf.length = s.len := by
  simpa [listForm] using h

theorem listForm_buf_eq_nil_iff {s : State} : (listForm s).buf = [] ↔ s.len = 0 := by
  simp [listForm, ← List.length_eq_zero_iff]

theorem frameWidth_le_five (w : Bool) : Rules.frameWidth w ≤ 5 := by
  cases w <;> decide

/-- An array append is the list append of R37. -/
theorem listForm_appendData {s : State} (h : s.len < 5) (b : Byte) :
    listForm (appendData b s) =
      { listForm s with buf := (listForm s).buf ++ [b], cnt := Rules.counted s.cfg s.cnt } := by
  have append : (s.buf.setIfInBounds s.len b).toList.take (s.len + 1) =
      s.buf.toList.take s.len ++ [b] := by
    rw [Vector.toList_setIfInBounds, List.take_add_one, List.take_set_of_le (Nat.le_refl _),
      List.getElem?_set_self (by simpa using h)]
    rfl
  exact congrArg (Rules.Decoder.mk · _ _ _) append

/-- The bytes of a complete buffer, cut by R90 and R100. -/
theorem interpretList_listForm {s : State} (h : s.len = Rules.frameWidth s.wide) (c : Config)
    (p : Byte) : Rules.interpretList c p (listForm s).buf =
      (s.buf[0], Rules.frameEvents c p s.buf[0] (bufPairs s)) := by
  rw [listForm, h, toList_eq_entries, bufPairs]
  cases s.wide <;> rfl

/-! ### The rules' feed, branch by branch -/

namespace Rules

variable {c : Config} {d : Decoder} {b : Byte}

theorem feed_of_sync_complete (hb : SyncByte b) (h : d.buf.length = frameWidth d.wide) :
    feed c d b =
      ({ buf := [b], cnt := 0, wide := decide (counted c d.cnt = 5),
         prev := (interpretList c d.prev d.buf).1 }, (interpretList c d.prev d.buf).2) := by
  simp only [feed, if_pos hb, if_pos h]

theorem feed_of_sync_incomplete (hb : SyncByte b) (h : d.buf.length ≠ frameWidth d.wide) :
    feed c d b =
      ({ buf := [b], cnt := 0, wide := decide (counted c d.cnt = 5), prev := d.prev }, []) := by
  simp only [feed, if_pos hb, if_neg h]

theorem feed_of_data_idle (hb : DataByte b) (h : d.buf = []) :
    feed c d b = ({ d with cnt := counted c d.cnt }, []) := by
  simp only [feed, if_neg hb, if_pos h]

theorem feed_of_data_full (hb : DataByte b) (h0 : d.buf ≠ [])
    (h : d.buf.length + 1 = frameWidth d.wide) :
    feed c d b =
      ({ d with buf := [], cnt := counted c d.cnt,
                prev := (interpretList c d.prev (d.buf ++ [b])).1 },
        (interpretList c d.prev (d.buf ++ [b])).2) := by
  simp only [feed, if_neg hb, if_neg h0, List.length_append, List.length_singleton, if_pos h]

theorem feed_of_data_short (hb : DataByte b) (h0 : d.buf ≠ [])
    (h : d.buf.length + 1 ≠ frameWidth d.wide) :
    feed c d b = ({ d with buf := d.buf ++ [b], cnt := counted c d.cnt }, []) := by
  simp only [feed, if_neg hb, if_neg h0, List.length_append, List.length_singleton, if_neg h]

end Rules

/-! ### The simulation -/

/-- The state `t` is what the result `r` of the rules' `feed` says of the list form of `s`, with the
same events appended and nothing else changed. -/
structure Simulates (s t : State) (r : Rules.Decoder × List Event) : Prop where
  form  : listForm t = r.1
  out   : t.out = s.out ++ r.2
  cfg   : t.cfg = s.cfg
  input : t.input = s.input

theorem simulates_feedSync {s : State} {b : Byte} (hb : Rules.SyncByte b) (h : s.len ≤ 5) :
    Simulates s (feedSync b s) (Rules.feed s.cfg (listForm s) b) := by
  have first : (s.buf.setIfInBounds 0 b).toList.take 1 = [b] := by simp [toList_eq_entries]
  by_cases hfull : s.len = Rules.frameWidth s.wide
  · rw [feedSync_eq_of_complete b s hfull,
      Rules.feed_of_sync_complete hb ((listForm_buf_length h).trans hfull),
      interpretList_listForm hfull]
    exact ⟨congrArg (Rules.Decoder.mk · 0 _ _) first, rfl, rfl, rfl⟩
  · rw [feedSync_eq_of_incomplete b s hfull,
      Rules.feed_of_sync_incomplete hb (mt (listForm_buf_length h).symm.trans hfull)]
    exact ⟨congrArg (Rules.Decoder.mk · 0 _ _) first, (List.append_nil _).symm, rfl, rfl⟩

theorem simulates_feedData {s : State} {b : Byte} (hb : Rules.DataByte b) (h : s.len < 5) :
    Simulates s (feedData b s) (Rules.feed s.cfg (listForm s) b) := by
  have hlen := listForm_buf_length h.le
  by_cases h0 : s.len = 0
  · rw [feedData_of_idle h0, Rules.feed_of_data_idle hb (listForm_buf_eq_nil_iff.2 h0)]
    exact ⟨rfl, (List.append_nil _).symm, rfl, rfl⟩
  have hne : (listForm s).buf ≠ [] := mt listForm_buf_eq_nil_iff.1 h0
  have happend := listForm_appendData h b
  by_cases h1 : s.len + 1 = Rules.frameWidth s.wide
  · have hbuf : (listForm (appendData b s)).buf = (listForm s).buf ++ [b] := by rw [happend]
    rw [feedData_of_full h0 h1, Rules.feed_of_data_full hb hne (by rw [hlen]; exact h1), ← hbuf,
      interpretList_listForm (s := appendData b s) h1, completeData_eq]
    exact ⟨rfl, rfl, rfl, rfl⟩
  · rw [feedData_of_short h0 h1, Rules.feed_of_data_short hb hne (by rw [hlen]; exact h1)]
    exact ⟨happend, (List.append_nil _).symm, rfl, rfl⟩

theorem simulates_feedByte {s : State} {b : Byte}
    (h : s.len ≤ 4 ∨ (s.len = 5 ∧ Rules.SyncByte b)) :
    Simulates s (feedByte b s) (Rules.feed s.cfg (listForm s) b) := by
  by_cases hb : Rules.SyncByte b
  · rw [feedByte_of_syncByte hb]
    exact simulates_feedSync hb (by omega)
  · rw [feedByte_of_dataByte hb]
    exact simulates_feedData hb (by omega)

/-- Settles O43: a commuting square for each branch of R65. -/
theorem feedAgreesWithListForm : Obligations.FeedAgreesWithListForm := by
  intro s b h
  obtain ⟨hform, hout, hcfg, hinput⟩ := simulates_feedByte h
  exact ⟨feedByte b s, deliver_eq_feedByte b s, hform, hout, hcfg, hinput⟩

end Sys2Proof.Safety

/-! Proofs about the invariant of R17 and the count: what every byte does to `LEN`, `CNT`, `WIDE` and the
configuration, in every state. -/

namespace Sys2Proof.Machine

open Safety

/-! ### What one byte does to the control fields -/

/-- SYNC opens a frame whether or not the buffer was complete; only what it reports depends on that (R67). -/
theorem feedSync_opens (b : Byte) (s : State) : ∃ p sc o, feedSync b s =
    { s with buf := s.buf.setIfInBounds 0 b, len := 1, cnt := 0,
             wide := decide (Rules.counted s.cfg s.cnt = 5), prevBtn := p, scroll := sc, out := o } := by
  by_cases h : s.len = Rules.frameWidth s.wide
  · exact ⟨_, _, _, feedSync_eq_of_complete b s h⟩
  · exact ⟨_, _, _, feedSync_eq_of_incomplete b s h⟩

/-- A data byte is counted and leaves `WIDE`, the configuration and the queue, whichever operation it
performs (R81 to R83). -/
theorem feedData_counts (b : Byte) (s : State) : ∃ bf n p sc o, feedData b s =
    { s with cnt := Rules.counted s.cfg s.cnt, buf := bf, len := n, prevBtn := p, scroll := sc,
             out := o } := by
  rw [feedData_eq]
  split_ifs
  · exact ⟨_, _, _, _, _, discardByte_eq b s⟩
  · exact ⟨_, _, _, _, _, completeData_eq b s⟩
  · exact ⟨_, _, _, _, _, appendData_eq b s⟩

section
variable (b : Byte) (s : State)

@[simp] theorem feedSync_buf : (feedSync b s).buf = s.buf.setIfInBounds 0 b := by
  obtain ⟨_, _, _, h⟩ := feedSync_opens b s; rw [h]
@[simp] theorem feedSync_len : (feedSync b s).len = 1 := by
  obtain ⟨_, _, _, h⟩ := feedSync_opens b s; rw [h]
@[simp] theorem feedSync_cnt : (feedSync b s).cnt = 0 := by
  obtain ⟨_, _, _, h⟩ := feedSync_opens b s; rw [h]
@[simp] theorem feedSync_wide :
    (feedSync b s).wide = decide (Rules.counted s.cfg s.cnt = 5) := by
  obtain ⟨_, _, _, h⟩ := feedSync_opens b s; rw [h]
@[simp] theorem feedSync_cfg : (feedSync b s).cfg = s.cfg := by
  obtain ⟨_, _, _, h⟩ := feedSync_opens b s; rw [h]
@[simp] theorem feedSync_input : (feedSync b s).input = s.input := by
  obtain ⟨_, _, _, h⟩ := feedSync_opens b s; rw [h]

@[simp] theorem feedData_cnt : (feedData b s).cnt = Rules.counted s.cfg s.cnt := by
  obtain ⟨_, _, _, _, _, h⟩ := feedData_counts b s; rw [h]
@[simp] theorem feedData_wide : (feedData b s).wide = s.wide := by
  obtain ⟨_, _, _, _, _, h⟩ := feedData_counts b s; rw [h]
@[simp] theorem feedData_cfg : (feedData b s).cfg = s.cfg := by
  obtain ⟨_, _, _, _, _, h⟩ := feedData_counts b s; rw [h]

@[simp] theorem feedByte_cfg : (feedByte b s).cfg = s.cfg := by
  cases hb : isSync b with
  | true => rw [feedByte_of_sync hb, feedSync_cfg]
  | false => rw [feedByte_of_data hb, feedData_cfg]

theorem feedData_len : (feedData b s).len =
    if s.len = 0 then 0 else if s.len + 1 = Rules.frameWidth s.wide then 0 else s.len + 1 := by
  rw [feedData_eq]
  split_ifs with h0
  · exact h0
  · rw [completeData_eq]
  · rfl

end

/-! ### The configuration -/

theorem deliverAll_cfg (bs : List Byte) (s : State) :
    ∃ t, deliverAll bs s = some t ∧ t.cfg = s.cfg := by
  induction bs generalizing s with
  | nil => exact ⟨s, rfl, rfl⟩
  | cons b bs ih =>
    obtain ⟨t, hrun, hcfg⟩ := ih (feedByte b s)
    exact ⟨t, by rw [deliverAll_cons_eq_feedByte, hrun], by rw [hcfg, feedByte_cfg]⟩

section
variable (b : Byte) (ps : List (Byte × Byte)) (s : State)

@[simp] theorem interpret_cfg : (interpret b ps s).cfg = s.cfg := by rw [interpret_eq]
@[simp] theorem interpret_prevBtn : (interpret b ps s).prevBtn = b := by rw [interpret_eq]
@[simp] theorem interpret_scroll : (interpret b ps s).scroll = Rules.scrolls s.cfg b := by
  rw [interpret_eq]
@[simp] theorem interpret_out : (interpret b ps s).out =
    s.out ++ Rules.frameEvents s.cfg s.prevBtn b ps := by rw [interpret_eq]

end

theorem exec_cfg (i : Instr) (s t : State) (h : exec i s = .next t) : t.cfg = s.cfg := by
  cases i <;> cases h
  case sync => exact feedSync_cfg _ s
  case data00_7F | dataC0_FF | dataA0_BF | data90_9F | data88_8F => exact feedData_cfg _ s
  case dataDiscard | dataAppend => rfl
  case dataComplete => rw [completeData_eq]; rfl
  case frame3 | frame5 => exact interpret_cfg _ _ s
  case btn => rw [reportButtons_eq]
  case mode | move | scroll | scrollInv | pairZero => rfl

/-- Settles O38, by induction on the stream and by the arms of `exec`. -/
theorem configurationIsConstant : Obligations.ConfigurationIsConstant :=
  ⟨deliverAll_cfg, exec_cfg⟩

/-! ### The count -/

theorem counted_of_none {c : Config} (h : c.cntModulus = none) (n : Nat) :
    Rules.counted c n = n + 1 := by
  rw [Rules.counted, h]

theorem counted_of_some {c : Config} {m : Nat} (h : c.cntModulus = some m) (n : Nat) :
    Rules.counted c n = (n + 1) % m := by
  rw [Rules.counted, h]

theorem eight_le_of_legal {c : Config} (h : c.Legal) {m : Nat} (hm : c.cntModulus = some m) :
    8 ≤ m := by
  rw [Config.Legal, hm] at h
  exact h.1

/-- No admitted counter wraps within a frame. -/
theorem counted_of_legal {c : Config} (h : c.Legal) {n : Nat} (hn : n < 7) :
    Rules.counted c n = n + 1 := by
  cases hm : c.cntModulus with
  | none => exact counted_of_none hm n
  | some m =>
    have := eight_le_of_legal h hm
    rw [counted_of_some hm, Nat.mod_eq_of_lt (by omega)]

theorem legal_of_none {c : Config} (h : c.cntModulus = none) : c.Legal := by
  rw [Config.Legal, h]
  exact trivial

theorem counted_iterate_of_none {c : Config} (h : c.cntModulus = none) (n k : Nat) :
    (Rules.counted c)^[n] k = k + n := by
  induction n generalizing k with
  | zero => rfl
  | succ n ih =>
    rw [Function.iterate_succ_apply, counted_of_none h, ih]
    omega

theorem counted_iterate_of_some {c : Config} {m : Nat} (h : c.cntModulus = some m) (n k : Nat) :
    (Rules.counted c)^[n + 1] k = (k + n + 1) % m := by
  induction n with
  | zero => exact counted_of_some h k
  | succ n ih =>
    rw [Function.iterate_succ_apply', ih, counted_of_some h, Nat.mod_add_mod]
    rfl

/-- Data bytes do to the count what counting them does, in every state (R66). -/
theorem deliverAll_data_cnt (ds : List Byte) (s : State) (h : ∀ d ∈ ds, Rules.DataByte d) :
    ∃ t, deliverAll ds s = some t ∧ t.cnt = (Rules.counted s.cfg)^[ds.length] s.cnt ∧
      t.cfg = s.cfg := by
  induction ds generalizing s with
  | nil => exact ⟨s, rfl, rfl, rfl⟩
  | cons d ds ih =>
    obtain ⟨hd, hds⟩ := List.forall_mem_cons.1 h
    obtain ⟨t, hrun, hcnt, hcfg⟩ := ih (feedByte d s) hds
    refine ⟨t, by rw [deliverAll_cons_eq_feedByte, hrun], ?_, by rw [hcfg, feedByte_cfg]⟩
    rw [hcnt, feedByte_cfg, feedByte_of_dataByte hd, feedData_cnt, List.length_cons,
      Function.iterate_succ_apply]

/-- Settles O36: with the unbounded counter, counting is adding one. -/
theorem countFollowsBytes : Obligations.CountFollowsBytes := by
  intro s hnone
  refine ⟨fun ds hds => ?_, fun b hb => ⟨feedByte b s, deliver_eq_feedByte b s, ?_⟩⟩
  · obtain ⟨t, hrun, hcnt, _⟩ := deliverAll_data_cnt ds s hds
    exact ⟨t, hrun, by rw [hcnt, counted_iterate_of_none hnone]⟩
  · rw [feedByte_of_syncByte hb, feedSync_cnt]

/-- The sync byte after some data bytes is the next one counted, and selects Wide at a count of 5 (R68). -/
theorem deliverAll_data_sync_wide (ds : List Byte) (b : Byte) (s : State)
    (hds : ∀ d ∈ ds, Rules.DataByte d) (hb : Rules.SyncByte b) :
    ∃ t, deliverAll (ds ++ [b]) s = some t ∧
      t.wide = decide ((Rules.counted s.cfg)^[ds.length + 1] s.cnt = 5) := by
  obtain ⟨u, hrun, hcnt, hcfg⟩ := deliverAll_data_cnt ds s hds
  refine ⟨feedByte b u, ?_, ?_⟩
  · rw [deliverAll_append, hrun, Option.bind_some, deliverAll_cons_eq_feedByte, deliverAll]
  · rw [feedByte_of_syncByte hb, feedSync_wide, hcnt, hcfg, Function.iterate_succ_apply']

/-- Settles O51: `2^k * j + 5` is 5 modulo `2^k`, which is at least 8, and is not 5. -/
theorem wrappingCounterSelectsWide : Obligations.WrappingCounterSelectsWide := by
  intro s k j ds b hk hj hcnt hds hlen hb
  obtain ⟨t, hrun, hwide⟩ := deliverAll_data_sync_wide ds b s hds hb
  have big : 2 ^ 3 ≤ 2 ^ k := Nat.pow_le_pow_right (by decide) hk
  rw [hcnt, hlen] at hwide
  refine ⟨fun hmod => ⟨t, hrun, ?_⟩, fun hnone => ⟨t, hrun, ?_⟩⟩
  · rw [hwide, counted_iterate_of_some hmod, decide_eq_true_iff]
    calc (0 + (2 ^ k * j + 4) + 1) % 2 ^ k = (2 ^ k * j + 5) % 2 ^ k := by congr 1; omega
      _ = 5 % 2 ^ k := Nat.mul_add_mod _ _ _
      _ = 5 := Nat.mod_eq_of_lt (by omega)
  · have pos : 0 < 2 ^ k * j := Nat.mul_pos (by omega) hj
    rw [hwide, counted_iterate_of_none hnone, decide_eq_false_iff_not]
    omega

/-! ### The invariant of R17 -/

/-- While the buffer is empty R17 (a) to (c) ask nothing. -/
theorem bufferInv_of_idle {s : State} (h : s.len = 0) : BufferInv s where
  lenBound := by rw [h]; cases s.wide <;> decide
  startSync h1 := by omega
  restData _ _ _ h1 := by omega
  counted _ h1 := by omega

/-- Settles O34: construction leaves an empty buffer. -/
theorem constructionMeetsInvariant : Obligations.ConstructionMeetsInvariant :=
  ⟨fun _ => bufferInv_of_idle rfl, bufferInv_of_idle rfl⟩

/-- SYNC makes the invariant true in every state. -/
theorem bufferInv_feedSync {b : Byte} (hb : Rules.SyncByte b) (s : State) :
    BufferInv (feedSync b s) where
  lenBound := by
    rw [feedSync_len]
    cases (feedSync b s).wide <;> decide
  startSync _ := by
    simp only [feedSync_buf, Vector.getElem_setIfInBounds_self]
    exact hb
  restData i _ h1 hi := by
    rw [feedSync_len] at hi
    omega
  counted _ _ := by rw [feedSync_cnt, feedSync_len]

theorem bufferInv_appendData {s : State} {b : Byte} (h : BufferInv s) (hb : Rules.DataByte b)
    (h1 : 1 ≤ s.len) (hshort : s.len + 1 < Rules.frameWidth s.wide) :
    BufferInv (appendData b s) where
  lenBound := hshort
  startSync _ := by
    rw [appendData_eq, getElem_buf_setIfInBounds, if_neg (by omega)]
    exact h.startSync h1
  restData i hi hi1 hlt := by
    rw [appendData_eq, getElem_buf_setIfInBounds]
    split_ifs with heq
    · exact hb
    · exact h.restData i hi hi1 (Nat.lt_of_le_of_ne (Nat.lt_succ_iff.1 hlt) heq)
  counted hlegal _ := by
    have hcnt := h.counted hlegal h1
    have := frameWidth_le_five s.wide
    calc Rules.counted s.cfg s.cnt = s.cnt + 1 := counted_of_legal hlegal (by omega)
      _ = s.len + 1 - 1 := by omega

theorem bufferInv_feedData {s : State} {b : Byte} (h : BufferInv s) (hb : Rules.DataByte b) :
    BufferInv (feedData b s) := by
  by_cases h0 : s.len = 0
  · exact bufferInv_of_idle (by rw [feedData_len, if_pos h0])
  by_cases h1 : s.len + 1 = Rules.frameWidth s.wide
  · exact bufferInv_of_idle (by rw [feedData_len, if_neg h0, if_pos h1])
  · rw [feedData_of_short h0 h1]
    exact bufferInv_appendData h hb (by omega) (Nat.lt_of_le_of_ne h.lenBound h1)

theorem bufferInv_feedByte {s : State} (h : BufferInv s) (b : Byte) : BufferInv (feedByte b s) := by
  by_cases hb : Rules.SyncByte b
  · rw [feedByte_of_syncByte hb]
    exact bufferInv_feedSync hb s
  · rw [feedByte_of_dataByte hb]
    exact bufferInv_feedData h hb

/-- The queue is no part of the invariant. -/
theorem bufferInv_setInput {s : State} (h : BufferInv s) (q : List Input) :
    BufferInv (s.setInput q) :=
  ⟨h.lenBound, h.startSync, h.restData, h.counted⟩

/-- Settles O35: holding keeps the state, a restart empties the buffer, and a byte keeps the invariant. -/
theorem stepKeepsInvariant : Obligations.StepKeepsInvariant := by
  intro s t h hstep
  obtain hin | ⟨b, rest, hin⟩ | ⟨emu, inv, rest, hin⟩ := input_cases s.input
  · rw [step_of_nil s hin] at hstep
    cases hstep
    exact h
  · rw [step_of_byte_eq_feedByte s b rest hin] at hstep
    cases hstep
    exact bufferInv_feedByte (bufferInv_setInput h rest) b
  · rw [step_of_restart s emu inv rest hin] at hstep
    cases hstep
    exact bufferInv_of_idle rfl

/-- Settles O32: the restarted state is construction's, with the output and the queue kept. -/
theorem restartIsReset : Obligations.RestartIsReset := fun s emu inv rest hin =>
  ⟨_, step_of_restart s emu inv rest hin, rfl, rfl, rfl, rfl, rfl, rfl, rfl, rfl, rfl, rfl⟩

/-! ### Mid-frame and idle counts -/

theorem midFrame_cnt_lt_four {s : State} (h : BufferInv s) (hnone : s.cfg.cntModulus = none)
    (h1 : 1 ≤ s.len) : s.cnt < 4 := by
  have := h.counted (legal_of_none hnone) h1
  have := h.lenBound
  have := frameWidth_le_five s.wide
  omega

/-- Settles O11: mid-frame the count is below 4 by R17 (a) and (c), so this byte is not the fifth. -/
theorem midFrameSyncSelectsNarrow : Obligations.MidFrameSyncSelectsNarrow := by
  intro s b h hnone hb
  have midFrame := midFrame_cnt_lt_four h hnone
  refine ⟨feedByte b s, deliver_eq_feedByte b s, ?_⟩
  rw [feedByte_of_syncByte hb, feedSync_wide, counted_of_none hnone, decide_eq_true_iff,
    decide_eq_false_iff_not]
  exact ⟨fun h1 => by have := midFrame h1; omega, fun h5 => by omega⟩

/-- R17 (d) with the invariant it needs to be kept: an idle block has counted two bytes since a sync byte. -/
structure IdleInv (s : State) : Prop extends BufferInv s where
  idleCount : s.len = 0 → 2 ≤ s.cnt

theorem idleInv_feedByte {s : State} (h : IdleInv s) (hnone : s.cfg.cntModulus = none) (b : Byte) :
    IdleInv (feedByte b s) := by
  refine ⟨bufferInv_feedByte h.toBufferInv b, fun hidle => ?_⟩
  by_cases hb : Rules.SyncByte b
  · rw [feedByte_of_syncByte hb, feedSync_len] at hidle
    exact absurd hidle (by decide)
  · rw [feedByte_of_dataByte hb, feedData_len] at hidle
    rw [feedByte_of_dataByte hb, feedData_cnt, counted_of_none hnone]
    by_cases h0 : s.len = 0
    · have := h.idleCount h0
      omega
    · have := h.counted (legal_of_none hnone) (by omega)
      have three : 3 ≤ Rules.frameWidth s.wide := by cases s.wide <;> decide
      rw [if_neg h0] at hidle
      split at hidle <;> omega

theorem idleInv_feedSync {b : Byte} (hb : Rules.SyncByte b) (s : State) : IdleInv (feedSync b s) :=
  ⟨bufferInv_feedSync hb s, fun hidle => by rw [feedSync_len] at hidle; omega⟩

theorem idleInv_deliverAll (bs : List Byte) {s : State} (h : IdleInv s)
    (hnone : s.cfg.cntModulus = none) : ∃ t, deliverAll bs s = some t ∧ IdleInv t := by
  induction bs generalizing s with
  | nil => exact ⟨s, rfl, h⟩
  | cons b bs ih =>
    rw [deliverAll_cons_eq_feedByte]
    exact ih (idleInv_feedByte h hnone b) (by rw [feedByte_cfg, hnone])

/-- Settles O37: the stream's sync byte makes the invariant true, and the bytes after it keep it. -/
theorem idleAfterSyncCountsTwo : Obligations.IdleAfterSyncCountsTwo := by
  rintro c bs hnone ⟨b, hmem, hb⟩
  obtain ⟨before, after, rfl⟩ := List.append_of_mem hmem
  obtain ⟨u, hrun, hcfg⟩ := deliverAll_cfg before (State.construct c)
  have hnone' : (feedSync b u).cfg.cntModulus = none := by rw [feedSync_cfg, hcfg]; exact hnone
  obtain ⟨t, hrun', hinv⟩ := idleInv_deliverAll after (idleInv_feedSync hb u) hnone'
  refine ⟨t, ?_, hinv.idleCount⟩
  rw [deliverAll_append, hrun, Option.bind_some, deliverAll_cons_eq_feedByte,
    feedByte_of_syncByte hb, hrun']

/-! ### The control states of R85 -/

/-- The pairs of `WIDE` and `LEN` that R17 (a) leaves: idle in either dialect, and six mid-frame. -/
theorem control_cases {w : Bool} {n : Nat} (h : n < Rules.frameWidth w) :
    n = 0 ∨ (w = false ∧ (n = 1 ∨ n = 2)) ∨ (w = true ∧ (n = 1 ∨ n = 2 ∨ n = 3 ∨ n = 4)) := by
  revert h
  cases w <;> simp [Rules.frameWidth] <;> omega

theorem controlState_of_idle {s : State} (h : s.len = 0) : controlState s = some .idle := by
  rw [controlState, h]
  cases s.wide <;> rfl

theorem controlState_isSome {s : State} (h : s.len < Rules.frameWidth s.wide) :
    ∃ k, controlState s = some k := by
  obtain h0 | ⟨hw, hn | hn⟩ | ⟨hw, hn | hn | hn | hn⟩ := control_cases h
  · exact ⟨.idle, controlState_of_idle h0⟩
  all_goals simp [controlState, hw, hn]

theorem controlState_feedSync (b : Byte) (s : State) : controlState (feedSync b s) =
    some (onSync (decide (Rules.counted s.cfg s.cnt = 5)) .idle) := by
  by_cases h : Rules.counted s.cfg s.cnt = 5 <;> simp [controlState, onSync, h]

theorem controlState_feedData {s : State} {k : Control} (h : s.len < Rules.frameWidth s.wide)
    (hk : controlState s = some k) (b : Byte) :
    controlState (feedData b s) = some (onData k) := by
  have hlen := feedData_len b s
  obtain h0 | ⟨hw, hn | hn⟩ | ⟨hw, hn | hn | hn | hn⟩ := control_cases h
  · obtain rfl : Control.idle = k := Option.some.inj ((controlState_of_idle h0).symm.trans hk)
    exact controlState_of_idle (by rw [hlen, if_pos h0])
  all_goals
    simp only [controlState, hw, hn, Option.some.injEq] at hk
    subst hk
    simp [hw, hn, Rules.frameWidth] at hlen
    simp [controlState, hw, hlen, onData]

/-- Settles O45: `WIDE` and `LEN` after each byte are read off the table, and mid-frame no sync byte is the
fifth byte. -/
theorem controlFollowsTable : Obligations.ControlFollowsTable := by
  intro s b h hnone
  obtain ⟨k, hk⟩ := controlState_isSome h.lenBound
  refine ⟨feedByte b s, k, deliver_eq_feedByte b s, hk, fun hb => ?_, fun hb => ?_⟩
  · rw [feedByte_of_syncByte hb, controlState_feedSync, counted_of_none hnone]
    by_cases h0 : s.len = 0
    · obtain rfl : Control.idle = k := Option.some.inj ((controlState_of_idle h0).symm.trans hk)
      rfl
    · have := midFrame_cnt_lt_four h hnone (by omega)
      rw [decide_eq_false (by omega)]
      cases k <;> rfl
  · rw [feedByte_of_dataByte hb]
    exact controlState_feedData h.lenBound hk b

end Sys2Proof.Machine

/-! Proofs about the operations: what each row executes, as one update of the state, and how the rows of one
level run those of the next. -/

namespace Sys2Proof.Machine

open Safety

/-! ### SYNC -/

theorem exec_sync (l m r : Bool) (s : State) :
    exec (.sync l m r) s = .next (feedSync (Rules.buttonByte l m r) s) := by
  rw [← syncByte_eq]
  rfl

/-- Settles O9: on an incomplete buffer SYNC is one record update. -/
theorem syncOpensFrame : Obligations.SyncOpensFrame := by
  intro l m r s h
  refine ⟨_, exec_sync l m r s, ?_⟩
  rw [feedSync_eq_of_incomplete _ s h.ne]
  exact ⟨rfl, Vector.getElem_setIfInBounds_self _,
    fun i hi h0 => Vector.getElem_setIfInBounds_ne hi h0.symm, rfl, rfl, rfl, rfl, rfl, rfl, rfl⟩

/-- Settles O10: the two arms of the flush, and R17 (a) rules the first one out. -/
theorem syncFlushesBuffer : Obligations.SyncFlushesBuffer := by
  intro l m r s opened
  have opens : opened (feedSync (Rules.buttonByte l m r) s) := by
    simp only [opened, feedSync_buf]
    exact ⟨feedSync_wide _ s, Vector.getElem_setIfInBounds_self _,
      fun i hi h0 => Vector.getElem_setIfInBounds_ne hi h0.symm,
      feedSync_len _ s, feedSync_cnt _ s, feedSync_cfg _ s, feedSync_input _ s⟩
  refine ⟨fun hfull => ⟨_, exec_sync l m r s, opens, ?_⟩,
    fun hshort => ⟨_, exec_sync l m r s, opens, ?_⟩, fun hinv => hinv.lenBound.ne⟩
  · rw [feedSync_eq_of_complete _ s hfull]
    exact ⟨rfl, rfl, rfl⟩
  · rw [feedSync_eq_of_incomplete _ s hshort]
    exact ⟨rfl, rfl, rfl⟩

/-! ### DATA.COMPLETE -/

/-- The pairs of the frame that `d` completes: those of the buffer with `d` as its last entry. -/
def completedPairs (d : Byte) (s : State) : List (Byte × Byte) :=
  if s.wide then [(s.buf[1], s.buf[2]), (s.buf[3], d)] else [(s.buf[1], d)]

theorem bufPairs_appendData {s : State} (h : s.len + 1 = Rules.frameWidth s.wide) (d : Byte) :
    bufPairs (appendData d s) = completedPairs d s := by
  simp only [bufPairs, completedPairs, appendData_eq, getElem_buf_setIfInBounds]
  cases hw : s.wide <;> simp only [hw, Rules.frameWidth] at h
  · have : s.len = 2 := by simpa using h
    simp [this]
  · have : s.len = 4 := by simpa using h
    simp [this]

theorem appendData_buf_zero {s : State} (h1 : 1 ≤ s.len) (d : Byte) :
    (appendData d s).buf[0] = s.buf[0] :=
  Vector.getElem_setIfInBounds_ne _ (Nat.one_le_iff_ne_zero.1 h1)

theorem completeData_eq_interpret {s : State} (h1 : 1 ≤ s.len)
    (h : s.len + 1 = Rules.frameWidth s.wide) (d : Byte) :
    completeData d s =
      { interpret s.buf[0] (completedPairs d s) (appendData d s) with len := 0 } := by
  rw [← bufPairs_appendData h, ← appendData_buf_zero h1 d]
  rfl

theorem completeData_eq_of_full {s : State} (h1 : 1 ≤ s.len)
    (h : s.len + 1 = Rules.frameWidth s.wide) (d : Byte) :
    completeData d s =
      { s with cnt := Rules.counted s.cfg s.cnt, buf := s.buf.setIfInBounds s.len d, len := 0,
               prevBtn := s.buf[0], scroll := Rules.scrolls s.cfg s.buf[0],
               out := s.out ++
                 Rules.frameEvents s.cfg s.prevBtn s.buf[0] (completedPairs d s) } := by
  rw [completeData_eq_interpret h1 h, interpret_eq]
  rfl

theorem exec_dataComplete (d : Byte) (s : State) :
    exec (.dataComplete d) s = .next (completeData d s) := rfl

/-- Settles O17: under its condition DATA.COMPLETE is one record update. -/
theorem completeInterpretsFrame : Obligations.CompleteInterpretsFrame := by
  intro d s _ h1 hfull
  refine ⟨_, exec_dataComplete d s, ?_⟩
  rw [completeData_eq_of_full h1 hfull]
  exact ⟨rfl, rfl, getElem_buf_setIfInBounds s.buf s.len d, rfl, rfl, rfl, rfl, rfl, rfl⟩

/-! ### The frame rows -/

theorem exec_frame3 (l m r : Bool) (x y : Byte) (s : State) :
    exec (.frame3 l m r x y) s = .next (interpret (Rules.buttonByte l m r) [(x, y)] s) := by
  rw [← syncByte_eq]
  rfl

theorem exec_frame5 (l m r : Bool) (x y u v : Byte) (s : State) :
    exec (.frame5 l m r x y u v) s =
      .next (interpret (Rules.buttonByte l m r) [(x, y), (u, v)] s) := by
  rw [← syncByte_eq]
  rfl

/-- The button byte is rebuilt from the three bits the decoder keeps of it. -/
theorem buttonByte_of_bits {b : Byte} (hb : Rules.SyncByte b) :
    Rules.buttonByte (b.getLsbD 2) (b.getLsbD 1) (b.getLsbD 0) = b := by
  rw [← syncByte_eq, sync_word b ((isSync_iff b).2 hb)]

theorem decode_frame3_iff {b x y : Byte} {i : Instr} :
    decode (.frame false) [b, x, y] = .ok i ↔
      (Rules.SyncByte b ∧ Rules.DataByte x ∧ Rules.DataByte y) ∧
        i = .frame3 (b.getLsbD 2) (b.getLsbD 1) (b.getLsbD 0) x y := by
  simp only [decode, ← isSync_iff, ← isSync_eq_false_iff]
  cases isSync b <;> cases isSync x <;> cases isSync y <;> simp [eq_comm]

theorem decode_frame5_iff {b x y u v : Byte} {i : Instr} :
    decode (.frame true) [b, x, y, u, v] = .ok i ↔
      (Rules.SyncByte b ∧ Rules.DataByte x ∧ Rules.DataByte y ∧ Rules.DataByte u ∧
        Rules.DataByte v) ∧
        i = .frame5 (b.getLsbD 2) (b.getLsbD 1) (b.getLsbD 0) x y u v := by
  simp only [decode, ← isSync_iff, ← isSync_eq_false_iff]
  cases isSync b <;> cases isSync x <;> cases isSync y <;> cases isSync u <;> cases isSync v <;>
    simp [eq_comm]

theorem exec_frame3_of_decode {b x y : Byte} {i : Instr}
    (h : decode (.frame false) [b, x, y] = .ok i) (s : State) :
    exec i s = .next (interpret b [(x, y)] s) := by
  obtain ⟨⟨hb, _⟩, rfl⟩ := decode_frame3_iff.1 h
  rw [exec_frame3, buttonByte_of_bits hb]

theorem exec_frame5_of_decode {b x y u v : Byte} {i : Instr}
    (h : decode (.frame true) [b, x, y, u, v] = .ok i) (s : State) :
    exec i s = .next (interpret b [(x, y), (u, v)] s) := by
  obtain ⟨⟨hb, _⟩, rfl⟩ := decode_frame5_iff.1 h
  rw [exec_frame5, buttonByte_of_bits hb]

/-- The bytes of a completed frame decode to a frame row, and that row is their `Interpret`. -/
theorem exists_frameRow {s : State} (h : BufferInv s) {d : Byte} (hd : Rules.DataByte d)
    (hfull : s.len + 1 = Rules.frameWidth s.wide) :
    ∃ f, decode (.frame s.wide) (s.buf.toList.take s.len ++ [d]) = .ok f ∧
      ∀ t, exec f t = .next (interpret s.buf[0] (completedPairs d s) t) := by
  have data : ∀ i, (hi : i < 5) → 1 ≤ i → i < s.len → Rules.DataByte s.buf[i] := h.restData
  cases hw : s.wide with
  | false =>
    have hlen : s.len = 2 := by simpa [hw, Rules.frameWidth] using hfull
    have hdec := decode_frame3_iff.2
      ⟨⟨h.startSync (by omega), data 1 (by decide) (by decide) (by omega), hd⟩, rfl⟩
    refine ⟨_, ?_, fun t => by rw [completedPairs, hw]; exact exec_frame3_of_decode hdec t⟩
    rw [hlen, toList_eq_entries]
    exact hdec
  | true =>
    have hlen : s.len = 4 := by simpa [hw, Rules.frameWidth] using hfull
    have hdec := decode_frame5_iff.2
      ⟨⟨h.startSync (by omega), data 1 (by decide) (by decide) (by omega),
        data 2 (by decide) (by decide) (by omega), data 3 (by decide) (by decide) (by omega), hd⟩,
        rfl⟩
    refine ⟨_, ?_, fun t => by rw [completedPairs, hw]; exact exec_frame5_of_decode hdec t⟩
    rw [hlen, toList_eq_entries]
    exact hdec

/-- Settles O18: both sides are `Interpret` of the completed frame. -/
theorem completeRunsFrameRow : Obligations.CompleteRunsFrameRow := by
  intro d s h hd h1 hfull
  obtain ⟨f, hdec, hexec⟩ := exists_frameRow h hd hfull
  exact ⟨f, _, hdec, hexec _,
    congrArg Host.Outcome.next (completeData_eq_interpret h1 hfull d)⟩

/-! ### The five DATA rows -/

/-- A row that feeds a data byte runs the operation of R80. -/
theorem runs_selected_of_feedData {s : State} {i : Instr} {b : Byte}
    (h : exec i s = .next (feedData b s)) :
    (∃ t, exec i s = .next t) ∧
    (s.len = 0 → exec i s = exec (.dataDiscard b) s) ∧
    (1 ≤ s.len → s.len + 1 < Rules.frameWidth s.wide → exec i s = exec (.dataAppend b) s) ∧
    (1 ≤ s.len → s.len + 1 = Rules.frameWidth s.wide → exec i s = exec (.dataComplete b) s) := by
  refine ⟨⟨_, h⟩, fun h0 => ?_, fun h1 hshort => ?_, fun h1 hfull => ?_⟩
  · rw [h, feedData_of_idle h0]
    rfl
  · rw [h, feedData_of_short (by omega) hshort.ne]
    rfl
  · rw [h, feedData_of_full (by omega) hfull]
    rfl

/-- The fixed bits of each DATA row and its field as one number (R47). -/
theorem data00_7F_pattern : ∀ x : BitVec 7,
    0b0#1 ++ x = BitVec.ofNat 8 x.toNat ∧ Rules.DataByte (0b0#1 ++ x) := by decide
theorem dataC0_FF_pattern : ∀ x : BitVec 6,
    0b11#2 ++ x = BitVec.ofNat 8 (0xC0 + x.toNat) ∧ Rules.DataByte (0b11#2 ++ x) := by decide
theorem dataA0_BF_pattern : ∀ x : BitVec 5,
    0b101#3 ++ x = BitVec.ofNat 8 (0xA0 + x.toNat) ∧ Rules.DataByte (0b101#3 ++ x) := by decide
theorem data90_9F_pattern : ∀ x : BitVec 4,
    0b1001#4 ++ x = BitVec.ofNat 8 (0x90 + x.toNat) ∧ Rules.DataByte (0b1001#4 ++ x) := by decide
theorem data88_8F_pattern : ∀ x : BitVec 3,
    0b10001#5 ++ x = BitVec.ofNat 8 (0x88 + x.toNat) ∧ Rules.DataByte (0b10001#5 ++ x) := by decide

/-- Settles O19: each row feeds the byte of its pattern. -/
theorem dataRowsRunSelectedOperation : Obligations.DataRowsRunSelectedOperation := by
  intro s _ runs
  have row : ∀ {i : Instr} {b c : Byte}, b = c ∧ Rules.DataByte b →
      exec i s = .next (feedData b s) → runs i c := by
    rintro i b _ ⟨rfl, hdata⟩ h
    exact ⟨hdata, runs_selected_of_feedData h⟩
  exact ⟨fun x => row (data00_7F_pattern x) rfl, fun x => row (dataC0_FF_pattern x) rfl,
    fun x => row (dataA0_BF_pattern x) rfl, fun x => row (data90_9F_pattern x) rfl,
    fun x => row (data88_8F_pattern x) rfl⟩

/-! ### BTN, MODE and the pairs -/

theorem exec_btn (b : Byte) (s : State) :
    exec (.btn b) s =
      .next { s with prevBtn := b, out := s.out ++ Rules.buttonEvents s.cfg s.prevBtn b } :=
  congrArg Host.Outcome.next (reportButtons_eq b s)

theorem exec_mode (b : Byte) (s : State) :
    exec (.mode b) s = .next { s with scroll := Rules.scrolls s.cfg b } :=
  congrArg Host.Outcome.next (selectMode_eq b s)

/-- Settles O22: BTN is one record update. -/
theorem buttonsReportChanges : Obligations.ButtonsReportChanges := fun b s =>
  ⟨_, exec_btn b s, rfl, rfl, rfl, rfl, rfl, rfl, rfl, rfl, rfl⟩

/-- Settles O26: MODE is one update of the mode register. -/
theorem modeSelectsScroll : Obligations.ModeSelectsScroll := by
  intro b s
  refine ⟨_, exec_mode b s, ?_, rfl, rfl, rfl, rfl, rfl, rfl, rfl, rfl⟩
  simp only [Rules.scrolls, Rules.pressed, Bool.and_eq_true, Bool.not_eq_true']

/-- Executing the row a pair decodes to is one turn of R90's loop. -/
theorem exec_selectPair (x y : Byte) (s : State) :
    exec (selectPair s.scroll s.cfg.scrollInv x y) s = .next (runPair x y s) := by
  unfold selectPair runPair
  split_ifs <;> rfl

/-- Settles O20: `Interpret` is these operations in this order, and each pair runs the row it decodes to. -/
theorem frameRunsItsOperations : Obligations.FrameRunsItsOperations := by
  intro l m r s b pair
  have hpair : ∀ x y u, pair x y u (runPair x y u) := fun x y u =>
    ⟨_, rfl, exec_selectPair x y u⟩
  exact ⟨reportButtons b s, selectMode b (reportButtons b s), rfl, rfl,
    fun x y => ⟨_, hpair x y _, exec_frame3 l m r x y s⟩,
    fun x y u v => ⟨_, _, hpair x y _, hpair u v _, exec_frame5 l m r x y u v s⟩⟩

/-- Settles O21: a frame row is one record update. -/
theorem frameEmitsItsEvents : Obligations.FrameEmitsItsEvents := by
  intro l m r s b runs
  have row : ∀ {i ps}, exec i s = .next (interpret b ps s) → runs i ps := by
    intro i ps h
    rw [interpret_eq] at h
    exact ⟨_, h, rfl, rfl, rfl, rfl, rfl, rfl, rfl, rfl, rfl⟩
  exact ⟨fun x y => row (exec_frame3 l m r x y s), fun x y u v => row (exec_frame5 l m r x y u v s)⟩

/-! ### The events of a frame -/

/-- A pair emits nothing, or it is not (0, 0) and emits the one event of the frame's mode. -/
theorem mem_pairEvents {c : Config} {b : Byte} {p : Byte × Byte} {e : Event}
    (h : e ∈ Rules.pairEvents c b p) :
    ¬ (p.1.toNat = 0 ∧ p.2.toNat = 0) ∧
      e = if Rules.scrolls c b = true then
          if c.scrollInv = true then
            .scroll (Rules.signed (Rules.negated p.2)) (Rules.signed (Rules.negated p.1))
          else .scroll (Rules.signed p.2.toNat) (Rules.signed p.1.toNat)
        else .move (Rules.signed p.1.toNat) (Rules.signed (Rules.negated p.2)) := by
  unfold Rules.pairEvents at h
  split_ifs at h ⊢ with hz <;> simp_all

theorem pairEvents_ne_buttonChanged {c : Config} {b : Byte} {p : Byte × Byte} {e : Event}
    (h : e ∈ Rules.pairEvents c b p) (id : ButtonId) (q : Bool) : e ≠ .buttonChanged id q := by
  obtain ⟨_, rfl⟩ := mem_pairEvents h
  split_ifs <;> exact Event.noConfusion

theorem mem_flatten_pairEvents {c : Config} {b : Byte} {ps : List (Byte × Byte)} {e : Event}
    (h : e ∈ (ps.map (Rules.pairEvents c b)).flatten) :
    ∃ p ∈ ps, e ∈ Rules.pairEvents c b p := by
  simpa [List.mem_flatten] using h

theorem frameEvents_self (c : Config) (b : Byte) (ps : List (Byte × Byte)) :
    Rules.frameEvents c b b ps = (ps.map (Rules.pairEvents c b)).flatten := by
  simp [Rules.frameEvents, Rules.buttonEvents, Rules.buttonEvent]

/-- Settles O23: the second time `PREV_BTN` is the frame's own button byte, so no level differs. -/
theorem repeatedFrameReportsNoButton : Obligations.RepeatedFrameReportsNoButton := by
  intro l m r s b twice
  have row : ∀ {i ps}, (∀ t, exec i t = .next (interpret b ps t)) → twice i ps := by
    intro i ps h
    refine ⟨interpret b ps s, _, h s, h _, ?_, fun e he id q => ?_⟩
    · rw [interpret_out b ps (interpret b ps s), interpret_prevBtn, interpret_cfg, frameEvents_self]
    · obtain ⟨p, _, hp⟩ := mem_flatten_pairEvents he
      exact pairEvents_ne_buttonChanged hp id q
  exact ⟨fun x y => row (exec_frame3 l m r x y), fun x y u v => row (exec_frame5 l m r x y u v)⟩

end Sys2Proof.Machine

/-! Proofs about the encodings: the decoder and the encoder undo each other, the fed-byte rows partition the
bytes, and the event word tells events apart. -/

namespace Sys2Proof.Machine

open Safety

/-! ### Fed bytes -/

/-- Settles O4: the decoder runs on the eight words. -/
theorem writtenWordsDecode : Obligations.WrittenWordsDecode :=
  ⟨rfl, rfl, rfl, rfl, rfl, rfl, rfl, rfl⟩

/-- The masks of R47 as the ranges of its table. -/
theorem masked_80_iff : ∀ b : Byte, b &&& 0x80 = 0x00 ↔ b.toNat ≤ 0x7F := by decide
theorem masked_C0_iff : ∀ b : Byte, b &&& 0xC0 = 0xC0 ↔ 0xC0 ≤ b.toNat := by decide
theorem masked_E0_iff : ∀ b : Byte, b &&& 0xE0 = 0xA0 ↔ 0xA0 ≤ b.toNat ∧ b.toNat ≤ 0xBF := by decide
theorem masked_F0_iff : ∀ b : Byte, b &&& 0xF0 = 0x90 ↔ 0x90 ≤ b.toNat ∧ b.toNat ≤ 0x9F := by decide

/-- The decode of a fed byte by the ranges of R46 and R47. -/
theorem decodeFed_eq (b : Byte) : decodeFed b =
    if Rules.SyncByte b then .sync (b.getLsbD 2) (b.getLsbD 1) (b.getLsbD 0)
    else if b.toNat ≤ 0x7F then .data00_7F (b.extractLsb' 0 7)
    else if 0xC0 ≤ b.toNat then .dataC0_FF (b.extractLsb' 0 6)
    else if 0xA0 ≤ b.toNat ∧ b.toNat ≤ 0xBF then .dataA0_BF (b.extractLsb' 0 5)
    else if 0x90 ≤ b.toNat ∧ b.toNat ≤ 0x9F then .data90_9F (b.extractLsb' 0 4)
    else .data88_8F (b.extractLsb' 0 3) := by
  simp only [decodeFed, isSync_iff, beq_iff_eq, masked_80_iff, masked_C0_iff, masked_E0_iff,
    masked_F0_iff]

/-- Settles O5: on each branch of the decode the byte's range is known, and it excludes the other five. -/
theorem fedBytesArePartitioned : Obligations.FedBytesArePartitioned := by
  intro b
  have := b.isLt
  rw [decodeFed_eq]
  split_ifs <;> simp <;> omega

theorem encode_decodeFed (b : Byte) : encode (decodeFed b) = [b] := by
  unfold decodeFed
  simp only [beq_iff_eq]
  split_ifs with h0 h1 h2 h3 h4
  · exact congrArg ([·]) (sync_word b h0)
  · exact congrArg ([·]) (data00_7F_word b h1)
  · exact congrArg ([·]) (dataC0_FF_word b h2)
  · exact congrArg ([·]) (dataA0_BF_word b h3)
  · exact congrArg ([·]) (data90_9F_word b h4)
  · exact congrArg ([·]) (data88_8F_word b (by simpa using h0) h1 h2 h3 h4)

theorem decodeFed_standsAt (b : Byte) : (decodeFed b).standsAt .fed := by
  unfold decodeFed
  split_ifs <;> rfl

/-- The encoder's patterns decode to their own rows: each field comes back. -/
theorem decodeFed_sync : ∀ l m r, decodeFed (syncByte l m r) = .sync l m r := by decide
theorem decodeFed_data00_7F : ∀ x : BitVec 7, decodeFed (0b0#1 ++ x) = .data00_7F x := by decide
theorem decodeFed_dataC0_FF : ∀ x : BitVec 6, decodeFed (0b11#2 ++ x) = .dataC0_FF x := by decide
theorem decodeFed_dataA0_BF : ∀ x : BitVec 5, decodeFed (0b101#3 ++ x) = .dataA0_BF x := by decide
theorem decodeFed_data90_9F : ∀ x : BitVec 4, decodeFed (0b1001#4 ++ x) = .data90_9F x := by decide
theorem decodeFed_data88_8F : ∀ x : BitVec 3, decodeFed (0b10001#5 ++ x) = .data88_8F x := by decide

/-! ### Data operations and pairs at their positions -/

theorem decode_payload_iff {n : Nat} {w : Bool} {d : Byte} {i : Instr} :
    decode (.payload n w) [d] = .ok i ↔ isSync d = false ∧ i = selectData n w d := by
  rw [decode]
  cases isSync d <;> simp [eq_comm]

theorem decode_pair (sc inv : Bool) (x y : Byte) :
    decode (.pair sc inv) [x, y] = .ok (selectPair sc inv x y) := rfl

theorem selectData_of_idle (w : Bool) (d : Byte) : selectData 0 w d = .dataDiscard d := rfl

theorem selectData_of_full {n : Nat} {w : Bool} (h1 : 1 ≤ n) (h : n + 1 = width w) (d : Byte) :
    selectData n w d = .dataComplete d := by
  rw [selectData, if_neg (by simpa using by omega), if_pos (by simpa using h)]

theorem selectData_of_short {n : Nat} {w : Bool} (h1 : 1 ≤ n) (h : n + 1 ≠ width w) (d : Byte) :
    selectData n w d = .dataAppend d := by
  rw [selectData, if_neg (by simpa using by omega), if_neg (by simpa using h)]

/-- The operation R80 selects for a data byte is that byte's, well formed, and stands where it was met. -/
theorem selectData_accepted {d : Byte} (h : isSync d = false) (n : Nat) (w : Bool) :
    encode (selectData n w d) = [d] ∧ (selectData n w d).wellFormed = true ∧
      (selectData n w d).standsAt (.payload n w) := by
  have wf : (!isSync d) = true := by rw [h]; rfl
  by_cases h0 : n = 0
  · subst h0
    exact ⟨rfl, wf, w, rfl⟩
  have h1 : 1 ≤ n := Nat.one_le_iff_ne_zero.2 h0
  by_cases hfull : n + 1 = width w
  · rw [selectData_of_full h1 hfull]
    exact ⟨rfl, wf, n, w, rfl, h1, hfull⟩
  · rw [selectData_of_short h1 hfull]
    exact ⟨rfl, wf, n, w, rfl, h1, hfull⟩

/-- A pair that is zero is PAIR.ZERO's, whatever the mode. -/
theorem isZeroPair_eq_true_iff {x y : Byte} : isZeroPair x y = true ↔ x = 0x00 ∧ y = 0x00 := by
  simp [isZeroPair]

theorem selectPair_of_nonzero {x y : Byte} (h : (!isZeroPair x y) = true) (sc inv : Bool) :
    selectPair sc inv x y =
      if sc then (if inv then .scrollInv x y else .scroll x y) else .move x y := by
  rw [selectPair, if_neg (by simpa using h)]

theorem selectPair_accepted (sc inv : Bool) (x y : Byte) :
    encode (selectPair sc inv x y) = [x, y] ∧ (selectPair sc inv x y).wellFormed = true ∧
      (selectPair sc inv x y).standsAt (.pair sc inv) := by
  cases hz : isZeroPair x y with
  | true =>
    obtain ⟨rfl, rfl⟩ := isZeroPair_eq_true_iff.1 hz
    exact ⟨rfl, rfl, sc, inv, rfl⟩
  | false =>
    have wf : (!isZeroPair x y) = true := by rw [hz]; rfl
    rw [selectPair_of_nonzero wf]
    cases sc with
    | false => exact ⟨rfl, wf, inv, rfl⟩
    | true => cases inv <;> exact ⟨rfl, wf, rfl⟩

/-- Settles O29: the zero test comes before the mode, and PAIR.ZERO's arm answers the same state. -/
theorem zeroPairEmitsNothing : Obligations.ZeroPairEmitsNothing := by
  refine ⟨fun sc inv x y => ?_, fun _ => rfl⟩
  rw [decode_pair, ← isZeroPair_iff, selectPair]
  cases isZeroPair x y <;> cases sc <;> cases inv <;> simp

/-! ### Round trips -/

theorem isSync_eq_false_of_wf {d : Byte} (h : (!isSync d) = true) : isSync d = false := by
  simpa using h

/-- The bits of a button byte come back from its pattern. -/
theorem syncByte_bits : ∀ l m r : Bool, (syncByte l m r).getLsbD 2 = l ∧
    (syncByte l m r).getLsbD 1 = m ∧ (syncByte l m r).getLsbD 0 = r := by decide

theorem decode_encode_frame3 {l m r : Bool} {x y : Byte}
    (h : (Instr.frame3 l m r x y).wellFormed = true) :
    decode (.frame false) (encode (.frame3 l m r x y)) = .ok (.frame3 l m r x y) := by
  obtain ⟨hl, hm, hr⟩ := syncByte_bits l m r
  simp only [Instr.wellFormed, Bool.and_eq_true, Bool.not_eq_true', isSync_eq_false_iff] at h
  refine decode_frame3_iff.2 ⟨⟨(isSync_iff _).1 (isSync_syncByte l m r), h.1, h.2⟩, ?_⟩
  rw [hl, hm, hr]

theorem decode_encode_frame5 {l m r : Bool} {x y u v : Byte}
    (h : (Instr.frame5 l m r x y u v).wellFormed = true) :
    decode (.frame true) (encode (.frame5 l m r x y u v)) = .ok (.frame5 l m r x y u v) := by
  obtain ⟨hl, hm, hr⟩ := syncByte_bits l m r
  simp only [Instr.wellFormed, Bool.and_eq_true, Bool.not_eq_true', isSync_eq_false_iff,
    and_assoc] at h
  refine decode_frame5_iff.2 ⟨⟨(isSync_iff _).1 (isSync_syncByte l m r), h⟩, ?_⟩
  rw [hl, hm, hr]

/-- Settles O6, row by row. -/
theorem decodeOfEncode : Obligations.DecodeOfEncode := by
  intro i p hwf hp
  cases i
  case sync l m r => obtain rfl := hp; exact congrArg Except.ok (decodeFed_sync l m r)
  case data00_7F x => obtain rfl := hp; exact congrArg Except.ok (decodeFed_data00_7F x)
  case dataC0_FF x => obtain rfl := hp; exact congrArg Except.ok (decodeFed_dataC0_FF x)
  case dataA0_BF x => obtain rfl := hp; exact congrArg Except.ok (decodeFed_dataA0_BF x)
  case data90_9F x => obtain rfl := hp; exact congrArg Except.ok (decodeFed_data90_9F x)
  case data88_8F x => obtain rfl := hp; exact congrArg Except.ok (decodeFed_data88_8F x)
  case dataDiscard d =>
    obtain ⟨w, rfl⟩ := hp
    exact decode_payload_iff.2 ⟨isSync_eq_false_of_wf hwf, (selectData_of_idle w d).symm⟩
  case dataAppend d =>
    obtain ⟨n, w, rfl, h1, hshort⟩ := hp
    exact decode_payload_iff.2 ⟨isSync_eq_false_of_wf hwf, (selectData_of_short h1 hshort d).symm⟩
  case dataComplete d =>
    obtain ⟨n, w, rfl, h1, hfull⟩ := hp
    exact decode_payload_iff.2 ⟨isSync_eq_false_of_wf hwf, (selectData_of_full h1 hfull d).symm⟩
  case frame3 => obtain rfl := hp; exact decode_encode_frame3 hwf
  case frame5 => obtain rfl := hp; exact decode_encode_frame5 hwf
  case btn => obtain rfl := hp; rfl
  case mode => obtain rfl := hp; rfl
  case move x y =>
    obtain ⟨inv, rfl⟩ := hp
    exact congrArg Except.ok (selectPair_of_nonzero hwf false inv)
  case scroll x y => obtain rfl := hp; exact congrArg Except.ok (selectPair_of_nonzero hwf true false)
  case scrollInv x y => obtain rfl := hp; exact congrArg Except.ok (selectPair_of_nonzero hwf true true)
  case pairZero => obtain ⟨sc, inv, rfl⟩ := hp; rfl

/-- Settles O7, position by position. -/
theorem encodeOfDecode : Obligations.EncodeOfDecode := by
  intro p bs i h
  unfold decode at h
  split at h
  next b =>
    obtain rfl : decodeFed b = i := Except.ok.inj h
    exact ⟨encode_decodeFed b, decodeFed_wellFormed b, decodeFed_standsAt b⟩
  next n w d =>
    obtain ⟨hd, rfl⟩ := decode_payload_iff.1 h
    exact selectData_accepted hd n w
  next b x y =>
    obtain ⟨⟨hb, hpay⟩, rfl⟩ := decode_frame3_iff.1 h
    refine ⟨?_, ?_, rfl⟩
    · rw [encode, sync_word b ((isSync_iff b).2 hb)]
    · simpa only [Instr.wellFormed, Bool.and_eq_true, Bool.not_eq_true', isSync_eq_false_iff]
  next b x y u v =>
    obtain ⟨⟨hb, hpay⟩, rfl⟩ := decode_frame5_iff.1 h
    refine ⟨?_, ?_, rfl⟩
    · rw [encode, sync_word b ((isSync_iff b).2 hb)]
    · simpa only [Instr.wellFormed, Bool.and_eq_true, Bool.not_eq_true', isSync_eq_false_iff,
        and_assoc]
  next b =>
    obtain rfl : Instr.btn b = i := Except.ok.inj h
    exact ⟨rfl, rfl, rfl⟩
  next b =>
    obtain rfl : Instr.mode b = i := Except.ok.inj h
    exact ⟨rfl, rfl, rfl⟩
  next sc inv x y =>
    obtain rfl : selectPair sc inv x y = i := Except.ok.inj h
    exact selectPair_accepted sc inv x y
  next => cases h

/-! ### The arithmetic of the operands -/

theorem toNat_neg8 (v : Byte) : (neg8 v).toNat = (256 - v.toNat) % 256 := by
  rw [neg8, BitVec.toNat_ofNat]

theorem neg8_neg8 (v : Byte) : neg8 (neg8 v) = v := by
  have := v.isLt
  apply BitVec.eq_of_toNat_eq
  rw [toNat_neg8, toNat_neg8]
  omega

/-- Two's-complement negation, with `0x80` its own negation. -/
theorem sext8_neg8 (v : Byte) : sext8 (neg8 v) = if v.toNat = 0x80 then -128 else - sext8 v := by
  have := v.isLt
  rw [sext8, sext8, toNat_neg8]
  split_ifs <;> omega

/-- Settles O30, by the remainder of `256 - v` and the two ranges of `sext_8`. -/
theorem negationLaws : Obligations.NegationLaws := by
  intro v
  exact ⟨toNat_neg8 v, neg8_neg8 v, rfl, fun h => by rw [sext8_neg8, if_neg h],
    fun h => by rw [sext8_neg8, if_pos h]⟩

/-! ### The event word -/

theorem append_inj {m n : Nat} {a a' : BitVec m} {b b' : BitVec n} (h : a ++ b = a' ++ b') :
    a = a' ∧ b = b' := by
  have hl := congrArg (BitVec.extractLsb' n m) h
  have hr := congrArg (BitVec.extractLsb' 0 n) h
  rw [BitVec.extractLsb'_append_eq_left, BitVec.extractLsb'_append_eq_left] at hl
  rw [BitVec.extractLsb'_append_eq_right, BitVec.extractLsb'_append_eq_right] at hr
  exact ⟨hl, hr⟩

/-- The fields of R57's word. -/
theorem wordFields_inj {k k' : BitVec 2} {a a' b b' : BitVec 8}
    (h : k ++ a ++ b = k' ++ a' ++ b') : k = k' ∧ a = a' ∧ b = b' := by
  obtain ⟨hka, hb⟩ := append_inj h
  obtain ⟨hk, ha⟩ := append_inj hka
  exact ⟨hk, ha, hb⟩

/-- The kind field of R57. -/
def eventKind : Event → BitVec 2
  | .move _ _ => 0b00
  | .scroll _ _ => 0b01
  | .buttonChanged _ _ => 0b10

theorem eventKind_ne_three (e : Event) : eventKind e ≠ 3 := by
  cases e <;> simp [eventKind]

theorem extract_kind (k : BitVec 2) (a b : BitVec 8) :
    (k ++ a ++ b).extractLsb' 16 2 = k := by
  rw [BitVec.extractLsb'_append_eq_of_le (by decide), BitVec.extractLsb'_append_eq_left]

theorem eventWord_kind (c : Config) (e : Event) :
    (eventWord c e).extractLsb' 16 2 = eventKind e := by
  cases e <;> exact extract_kind _ _ _

/-- An `Int8` value is the signed reading of its pattern. -/
theorem ofInt8_inj {a b : Int} (ha : -128 ≤ a ∧ a ≤ 127) (hb : -128 ≤ b ∧ b ≤ 127)
    (h : BitVec.ofInt 8 a = BitVec.ofInt 8 b) : a = b := by
  have toInt : ∀ {n : Int}, -128 ≤ n ∧ n ≤ 127 → (BitVec.ofInt 8 n).toInt = n := fun hn =>
    BitVec.toInt_ofInt_eq_self (by decide) (by norm_num; omega) (by norm_num; omega)
  rw [← toInt ha, ← toInt hb, h]

theorem eventMask_inj {c : Config} {id id' : ButtonId} (h : eventMask c id = eventMask c id') :
    id = id' := by
  cases c with | mk emu inv order modulus =>
  cases order <;> cases id <;> cases id' <;> simp_all [eventMask, buttonMask]

theorem pressedField_inj {p q : Bool} :
    (if p then 0x01#8 else 0x00#8) = (if q then 0x01#8 else 0x00#8) → p = q := by
  revert p q
  decide

/-- Settles O42: the kind field tells the three constructors apart, and the other two hold the fields. -/
theorem eventWordsAreDistinct : Obligations.EventWordsAreDistinct := by
  intro c e f he hf
  refine ⟨fun h => ?_, by rw [eventWord_kind]; exact eventKind_ne_three e⟩
  have hk : eventKind e = eventKind f := by rw [← eventWord_kind c, ← eventWord_kind c, h]
  cases e <;> cases f <;> simp only [eventKind] at hk
  case move.move | scroll.scroll =>
    obtain ⟨_, ha, hb⟩ := wordFields_inj h
    rw [ofInt8_inj he.1 hf.1 ha, ofInt8_inj he.2 hf.2 hb]
  case buttonChanged.buttonChanged =>
    obtain ⟨_, ha, hb⟩ := wordFields_inj h
    rw [eventMask_inj ha, pressedField_inj hb]
  all_goals exact absurd hk (by decide)

end Sys2Proof.Machine

/-! Proofs about the events of one feed: nothing, or those of the one frame that the byte completes. -/

namespace Sys2Proof.Machine

open Safety

/-! ### Which frame a feed interprets -/

/-- The pairs of the frame a byte makes the block interpret: a sync byte the one that stands complete
(R67), a data byte the one it completes (R83). -/
def Interprets (b : Byte) (s : State) (ps : List (Byte × Byte)) : Prop :=
  (Rules.SyncByte b ∧ s.len = Rules.frameWidth s.wide ∧ ps = bufPairs s) ∨
  (Rules.DataByte b ∧ 1 ≤ s.len ∧ s.len + 1 = Rules.frameWidth s.wide ∧ ps = completedPairs b s)

/-- In every state a byte leaves `PREV_BTN` and the output, or stores the button byte of the frame it makes
the block interpret and emits that frame's events (R93). -/
theorem feedByte_reports (b : Byte) (s : State) :
    ((feedByte b s).prevBtn = s.prevBtn ∧ (feedByte b s).out = s.out) ∨
    ∃ ps, Interprets b s ps ∧ (feedByte b s).prevBtn = s.buf[0] ∧
      (feedByte b s).out = s.out ++ Rules.frameEvents s.cfg s.prevBtn s.buf[0] ps := by
  by_cases hb : Rules.SyncByte b
  · rw [feedByte_of_syncByte hb]
    by_cases hfull : s.len = Rules.frameWidth s.wide
    · rw [feedSync_eq_of_complete b s hfull]
      exact .inr ⟨_, .inl ⟨hb, hfull, rfl⟩, rfl, rfl⟩
    · rw [feedSync_eq_of_incomplete b s hfull]
      exact .inl ⟨rfl, rfl⟩
  rw [feedByte_of_dataByte hb]
  by_cases h0 : s.len = 0
  · rw [feedData_of_idle h0]
    exact .inl ⟨rfl, rfl⟩
  by_cases hfull : s.len + 1 = Rules.frameWidth s.wide
  · have h1 : 1 ≤ s.len := Nat.one_le_iff_ne_zero.2 h0
    rw [feedData_of_full h0 hfull, completeData_eq_of_full h1 hfull]
    exact .inr ⟨_, .inr ⟨hb, h1, hfull, rfl⟩, rfl, rfl⟩
  · rw [feedData_of_short h0 hfull]
    exact .inl ⟨rfl, rfl⟩

theorem Interprets.length_le {b : Byte} {s : State} {ps : List (Byte × Byte)}
    (h : Interprets b s ps) : ps.length ≤ if s.wide then 2 else 1 := by
  obtain ⟨_, _, rfl⟩ | ⟨_, _, _, rfl⟩ := h
  · rw [bufPairs]; split <;> exact Nat.le_refl _
  · rw [completedPairs]; split <;> exact Nat.le_refl _

/-- No state that meets R17 has a complete buffer, so only a data byte makes the block interpret. -/
theorem Interprets.completes {b : Byte} {s : State} {ps : List (Byte × Byte)}
    (h : Interprets b s ps) (hinv : BufferInv s) :
    Rules.DataByte b ∧ 1 ≤ s.len ∧ s.len + 1 = Rules.frameWidth s.wide ∧
      ps = completedPairs b s :=
  h.resolve_left fun ⟨_, hfull, _⟩ => hinv.lenBound.ne hfull

/-- The payload of a frame cut from a state that meets R17 is data bytes. -/
theorem Interprets.dataBytes {b : Byte} {s : State} {ps : List (Byte × Byte)}
    (h : Interprets b s ps) (hinv : BufferInv s) :
    ∀ p ∈ ps, Rules.DataByte p.1 ∧ Rules.DataByte p.2 := by
  obtain ⟨hb, _, hfull, rfl⟩ := h.completes hinv
  have data : ∀ i, (hi : i < 5) → 1 ≤ i → i < s.len → Rules.DataByte s.buf[i] := hinv.restData
  have one : 1 < s.len := by
    have : ∀ w, 3 ≤ Rules.frameWidth w := by decide
    have := this s.wide
    omega
  have first := data 1 (by decide) (by decide) one
  rw [completedPairs]
  cases hw : s.wide with
  | false => exact List.forall_mem_singleton.2 ⟨first, hb⟩
  | true =>
    have hlen : s.len = 4 := by simpa [hw, Rules.frameWidth] using hfull
    exact List.forall_mem_cons.2 ⟨⟨first, data 2 (by decide) (by decide) (by omega)⟩,
      List.forall_mem_singleton.2 ⟨data 3 (by decide) (by decide) (by omega), hb⟩⟩

/-- Settles O25: under R17 the frame a feed interprets is the one a data byte completes. -/
theorem buttonsStoredOnCompletionOnly : Obligations.ButtonsStoredOnCompletionOnly := by
  intro s b hinv
  refine ⟨feedByte b s, deliver_eq_feedByte b s, fun ⟨hb, h1, hfull⟩ => ?_, fun hnot => ?_⟩
  · rw [feedByte_of_dataByte hb, feedData_of_full (Nat.one_le_iff_ne_zero.1 h1) hfull,
      completeData_eq_of_full h1 hfull]
  · obtain hkept | ⟨ps, hps, _⟩ := feedByte_reports b s
    · exact hkept
    · obtain ⟨hb, h1, hfull, _⟩ := hps.completes hinv
      exact absurd ⟨hb, h1, hfull⟩ hnot

/-! ### Alternation of the button events -/

theorem follow_append (id : ButtonId) (p : Bool) (xs ys : List Event) :
    Rules.follow id p (xs ++ ys) = (Rules.follow id p xs).bind (Rules.follow id · ys) := by
  induction xs generalizing p with
  | nil => rfl
  | cons e xs ih =>
    cases e with
    | move | scroll => exact ih p
    | buttonChanged j q =>
      simp only [List.cons_append, Rules.follow]
      split_ifs
      · rfl
      · exact ih q
      · exact ih p

/-- R91's table for a button takes its level from the stored byte's to this byte's. -/
theorem follow_buttonEvent_self (c : Config) (id : ButtonId) (prev b : Byte) :
    Rules.follow id (Rules.pressed c id prev) (Rules.buttonEvent c id prev b) =
      some (Rules.pressed c id b) := by
  rw [Rules.buttonEvent]
  split_ifs with h <;> simp [Rules.follow, h]

theorem follow_buttonEvent_other (c : Config) {id j : ButtonId} (h : j ≠ id) (p : Bool)
    (prev b : Byte) : Rules.follow id p (Rules.buttonEvent c j prev b) = some p := by
  rw [Rules.buttonEvent]
  split_ifs <;> simp [Rules.follow, h]

theorem follow_buttonEvents (c : Config) (id : ButtonId) (prev b : Byte) :
    Rules.follow id (Rules.pressed c id prev) (Rules.buttonEvents c prev b) =
      some (Rules.pressed c id b) := by
  simp only [Rules.buttonEvents, follow_append]
  cases id <;> simp [follow_buttonEvent_self, follow_buttonEvent_other]

theorem follow_of_no_button (id : ButtonId) (p : Bool) (evs : List Event)
    (h : ∀ e ∈ evs, ∀ j q, e ≠ .buttonChanged j q) : Rules.follow id p evs = some p := by
  induction evs with
  | nil => rfl
  | cons e evs ih =>
    obtain ⟨he, hevs⟩ := List.forall_mem_cons.1 h
    cases e with
    | move | scroll => exact ih hevs
    | buttonChanged j q => exact absurd rfl (he j q)

theorem follow_frameEvents (c : Config) (id : ButtonId) (prev b : Byte)
    (ps : List (Byte × Byte)) :
    Rules.follow id (Rules.pressed c id prev) (Rules.frameEvents c prev b ps) =
      some (Rules.pressed c id b) := by
  rw [Rules.frameEvents, follow_append, follow_buttonEvents, Option.bind_some]
  refine follow_of_no_button id _ _ fun e he j q => ?_
  obtain ⟨p, _, hp⟩ := mem_flatten_pairEvents he
  exact pairEvents_ne_buttonChanged hp j q

/-- From `s` to `t` some events were appended, in which each button's level goes from the one `PREV_BTN`
showed to the one it shows (R92). -/
def Alternates (s t : State) : Prop :=
  t.cfg = s.cfg ∧ ∃ evs, t.out = s.out ++ evs ∧
    ∀ id, Rules.follow id (Rules.pressed s.cfg id s.prevBtn) evs =
      some (Rules.pressed t.cfg id t.prevBtn)

theorem alternates_of_kept {s t : State} (hcfg : t.cfg = s.cfg) (hprev : t.prevBtn = s.prevBtn)
    (hout : t.out = s.out) : Alternates s t :=
  ⟨hcfg, [], by rw [hout, List.append_nil], fun id => by rw [hcfg, hprev, Rules.follow]⟩

theorem Alternates.trans {s t u : State} (hst : Alternates s t) (htu : Alternates t u) :
    Alternates s u := by
  obtain ⟨hcfg, evs, hout, hfollow⟩ := hst
  obtain ⟨hcfg', evs', hout', hfollow'⟩ := htu
  refine ⟨hcfg'.trans hcfg, evs ++ evs', by rw [hout', hout, List.append_assoc], fun id => ?_⟩
  rw [follow_append, hfollow, Option.bind_some, hfollow']

theorem alternates_feedByte (b : Byte) (s : State) : Alternates s (feedByte b s) := by
  obtain ⟨hprev, hout⟩ | ⟨ps, _, hprev, hout⟩ := feedByte_reports b s
  · exact alternates_of_kept (feedByte_cfg b s) hprev hout
  · refine ⟨feedByte_cfg b s, _, hout, fun id => ?_⟩
    rw [follow_frameEvents, feedByte_cfg, hprev]

theorem alternates_deliverAll (bs : List Byte) (s : State) :
    ∃ t, deliverAll bs s = some t ∧ Alternates s t := by
  induction bs generalizing s with
  | nil => exact ⟨s, rfl, alternates_of_kept rfl rfl rfl⟩
  | cons b bs ih =>
    obtain ⟨t, hrun, halt⟩ := ih (feedByte b s)
    exact ⟨t, by rw [deliverAll_cons_eq_feedByte, hrun], (alternates_feedByte b s).trans halt⟩

/-- At construction every bit of `PREV_BTN` is set, so every button is released (R18). -/
theorem pressed_released (c : Config) (id : ButtonId) : Rules.pressed c id 0xFF = false := by
  cases c with | mk emu inv order modulus =>
  cases order <;> cases id <;> simp [Rules.pressed, Rules.buttonBit] <;> decide

/-- Settles O24, by induction on the stream: what one byte does to the levels composes. -/
theorem buttonEventsAlternate : Obligations.ButtonEventsAlternate := by
  refine ⟨fun bs s id => ?_, pressed_released⟩
  obtain ⟨t, hrun, _, evs, hout, hfollow⟩ := alternates_deliverAll bs s
  exact ⟨t, evs, hrun, hout, hfollow id⟩

/-! ### How many events -/

theorem length_buttonEvent_le (c : Config) (j : ButtonId) (prev b : Byte) :
    (Rules.buttonEvent c j prev b).length ≤ 1 := by
  rw [Rules.buttonEvent]
  split_ifs <;> simp

theorem length_buttonEvents_le (c : Config) (prev b : Byte) :
    (Rules.buttonEvents c prev b).length ≤ 3 := by
  have hl := length_buttonEvent_le c .left prev b
  have hm := length_buttonEvent_le c .middle prev b
  have hr := length_buttonEvent_le c .right prev b
  simp only [Rules.buttonEvents, List.length_append]
  omega

theorem mem_buttonEvents {c : Config} {prev b : Byte} {e : Event}
    (h : e ∈ Rules.buttonEvents c prev b) : ∃ id p, e = .buttonChanged id p := by
  have one : ∀ {j}, e ∈ Rules.buttonEvent c j prev b → ∃ id p, e = .buttonChanged id p := by
    intro j hj
    rw [Rules.buttonEvent] at hj
    split_ifs at hj
    · simp at hj
    · exact ⟨_, _, List.mem_singleton.1 hj⟩
  simp only [Rules.buttonEvents, List.mem_append] at h
  obtain (h | h) | h := h <;> exact one h

/-- The events of a button among those of button `j`: at most one, and none unless it is `j`. -/
theorem length_filter_buttonEvent_le (c : Config) (id j : ButtonId) (prev b : Byte) :
    ((Rules.buttonEvent c j prev b).filter
      (fun e => e = .buttonChanged id true ∨ e = .buttonChanged id false)).length ≤
        if j = id then 1 else 0 := by
  rw [Rules.buttonEvent]
  by_cases h : j = id
  · rw [if_pos h]
    refine (List.length_filter_le _ _).trans ?_
    split_ifs <;> simp
  · split_ifs <;> simp [h]

theorem length_filter_buttonEvents_le (c : Config) (id : ButtonId) (prev b : Byte) :
    ((Rules.buttonEvents c prev b).filter
      (fun e => e = .buttonChanged id true ∨ e = .buttonChanged id false)).length ≤ 1 := by
  have hl := length_filter_buttonEvent_le c id .left prev b
  have hm := length_filter_buttonEvent_le c id .middle prev b
  have hr := length_filter_buttonEvent_le c id .right prev b
  simp only [Rules.buttonEvents, List.filter_append, List.length_append]
  cases id <;> simp only [reduceCtorEq, if_true, if_false] at hl hm hr <;> omega

theorem length_pairEvents_le (c : Config) (b : Byte) (p : Byte × Byte) :
    (Rules.pairEvents c b p).length ≤ 1 := by
  rw [Rules.pairEvents]
  split_ifs <;> simp

theorem length_flatten_pairEvents_le (c : Config) (b : Byte) (ps : List (Byte × Byte)) :
    ((ps.map (Rules.pairEvents c b)).flatten).length ≤ ps.length := by
  induction ps with
  | nil => exact Nat.le_refl _
  | cons p ps ih =>
    have := length_pairEvents_le c b p
    simp only [List.map_cons, List.flatten_cons, List.length_append, List.length_cons]
    omega

/-- The pair events of one frame are all of its mode's kind (R96). -/
theorem flatten_pairEvents_one_kind (c : Config) (b : Byte) (ps : List (Byte × Byte)) :
    (∀ e ∈ (ps.map (Rules.pairEvents c b)).flatten, ∃ dx dy, e = .move dx dy) ∨
    (∀ e ∈ (ps.map (Rules.pairEvents c b)).flatten, ∃ v h, e = .scroll v h) := by
  cases hm : Rules.scrolls c b with
  | false =>
    left
    intro e he
    obtain ⟨p, _, hp⟩ := mem_flatten_pairEvents he
    obtain ⟨_, rfl⟩ := mem_pairEvents hp
    rw [hm]
    exact ⟨_, _, rfl⟩
  | true =>
    right
    intro e he
    obtain ⟨p, _, hp⟩ := mem_flatten_pairEvents he
    obtain ⟨_, rfl⟩ := mem_pairEvents hp
    rw [hm]
    cases c.scrollInv <;> exact ⟨_, _, rfl⟩

/-- Settles O39: the two parts of the one frame's events. -/
theorem oneFeedEmitsAtMostFive : Obligations.OneFeedEmitsAtMostFive := by
  intro s b
  obtain ⟨_, hout⟩ | ⟨ps, hps, _, hout⟩ := feedByte_reports b s
  · exact ⟨feedByte b s, [], [], deliver_eq_feedByte b s, by simpa using hout, by simp⟩
  · refine ⟨feedByte b s, Rules.buttonEvents s.cfg s.prevBtn s.buf[0],
      (ps.map (Rules.pairEvents s.cfg s.buf[0])).flatten, deliver_eq_feedByte b s, ?_,
      length_buttonEvents_le _ _ _, fun e => mem_buttonEvents,
      fun id => length_filter_buttonEvents_le _ id _ _,
      (length_flatten_pairEvents_le _ _ ps).trans hps.length_le,
      flatten_pairEvents_one_kind _ _ ps⟩
    rw [hout, Rules.frameEvents, List.append_assoc]

/-! ### The value sets of R107 -/

/-- A data byte is never `0x80`..`0x87`, so its signed reading and that of its negation miss those values. -/
theorem signed_of_dataByte : ∀ v : Byte, Rules.DataByte v →
    -120 ≤ Rules.signed v.toNat ∧ Rules.signed v.toNat ≤ 127 := by decide
theorem signed_negated_of_dataByte : ∀ v : Byte, Rules.DataByte v →
    -127 ≤ Rules.signed (Rules.negated v) ∧ Rules.signed (Rules.negated v) ≤ 120 := by decide
theorem signed_eq_zero_iff : ∀ v : Byte, Rules.signed v.toNat = 0 ↔ v.toNat = 0 := by decide
theorem signed_negated_eq_zero_iff : ∀ v : Byte,
    Rules.signed (Rules.negated v) = 0 ↔ v.toNat = 0 := by decide

theorem reachableEvent_of_mem_pairEvents {c : Config} {b : Byte} {p : Byte × Byte} {e : Event}
    (h1 : Rules.DataByte p.1) (h2 : Rules.DataByte p.2) (h : e ∈ Rules.pairEvents c b p) :
    Rules.reachableEvent c e := by
  obtain ⟨hz, rfl⟩ := mem_pairEvents h
  have hx := signed_of_dataByte p.1 h1
  have hy := signed_of_dataByte p.2 h2
  have hnx := signed_negated_of_dataByte p.1 h1
  have hny := signed_negated_of_dataByte p.2 h2
  cases Rules.scrolls c b with
  | false =>
    refine ⟨hx, hny, ?_⟩
    rwa [signed_eq_zero_iff, signed_negated_eq_zero_iff]
  | true =>
    cases hinv : c.scrollInv with
    | false =>
      refine ⟨by rw [hinv]; exact ⟨hy, hx⟩, ?_⟩
      rwa [signed_eq_zero_iff, signed_eq_zero_iff, and_comm]
    | true =>
      refine ⟨by rw [hinv]; exact ⟨hny, hnx⟩, ?_⟩
      rwa [signed_negated_eq_zero_iff, signed_negated_eq_zero_iff, and_comm]

/-- Settles O40: R107 restricts only pair events, and their operands are data bytes. -/
theorem feedEventsInRange : Obligations.FeedEventsInRange := by
  intro s b hinv
  obtain ⟨_, hout⟩ | ⟨ps, hps, _, hout⟩ := feedByte_reports b s
  · exact ⟨feedByte b s, [], deliver_eq_feedByte b s, by simpa using hout, by simp⟩
  refine ⟨feedByte b s, _, deliver_eq_feedByte b s, hout, fun e he => ?_⟩
  obtain hbtn | hpair := List.mem_append.1 he
  · obtain ⟨id, p, rfl⟩ := mem_buttonEvents hbtn
    exact trivial
  · obtain ⟨p, hp, hmem⟩ := mem_flatten_pairEvents hpair
    obtain ⟨h1, h2⟩ := hps.dataBytes hinv p hp
    exact reachableEvent_of_mem_pairEvents h1 h2 hmem

/-! ### A frame placed as a table word -/

theorem step_offer (b : Byte) (s : State) : step (offer b s) = .next (feedByte b s) :=
  step_of_byte_eq_feedByte (offer b s) b s.input rfl

/-- The block with all bytes of a frame but its last held, as `placeFrame` leaves it. -/
def holdFrame (wide : Bool) (held : List Byte) (s : State) : State :=
  ((((held.zipIdx).foldl (fun t p => t.writeBuf p.2 p.1) s).setLen held.length).setCnt
    (held.length - 1)).setWide wide

theorem placeFrame_eq (wide : Bool) (held : List Byte) (last : Byte) (s : State) :
    placeFrame wide held last s = offer last (holdFrame wide held s) := rfl

theorem step_placeFrame {wide : Bool} {held : List Byte} {last : Byte}
    (hlast : Rules.DataByte last) (h1 : 1 ≤ held.length)
    (hfull : held.length + 1 = Rules.frameWidth wide) (s : State) :
    step (placeFrame wide held last s) = .next (completeData last (holdFrame wide held s)) := by
  rw [placeFrame_eq, step_offer, feedByte_of_dataByte hlast,
    feedData_of_full (Nat.one_le_iff_ne_zero.1 h1) hfull]

/-- The state a placed frame's run leaves, compared with the frame row's own effect. -/
def RunsAsPlaced (s t : State) (b : Byte) (ps : List (Byte × Byte)) : Prop :=
  t.out = (interpret b ps s).out ∧ t.prevBtn = (interpret b ps s).prevBtn ∧
    t.scroll = (interpret b ps s).scroll ∧ t.len = 0 ∧ t.input = s.input

theorem completeData_holdFrame_narrow (b x y : Byte) (s : State) :
    RunsAsPlaced s (completeData y (holdFrame false [b, x] s)) b [(x, y)] := by
  rw [completeData_eq_of_full (s := holdFrame false [b, x] s) (Nat.succ_pos 1) rfl]
  simp [RunsAsPlaced, completedPairs, holdFrame]

theorem completeData_holdFrame_wide (b x y u v : Byte) (s : State) :
    RunsAsPlaced s (completeData v (holdFrame true [b, x, y, u] s)) b [(x, y), (u, v)] := by
  rw [completeData_eq_of_full (s := holdFrame true [b, x, y, u] s) (Nat.succ_pos 3) rfl]
  simp [RunsAsPlaced, completedPairs, holdFrame]

theorem decode_of_decodeTableWord {n w : Nat} {i : Instr} (h : decodeTableWord n w = some i) :
    decode (tablePosition n) (tableBytes n w) = .ok i := by
  unfold decodeTableWord at h
  split at h
  next j hj => rw [hj, Option.some.inj h]
  next => cases h

/-- Settles O8: the placed bytes but the last are the buffer one byte short, and the last completes it. -/
theorem placedFrameIsRun : Obligations.PlacedFrameIsRun := by
  rintro s n w i (rfl | rfl) h
  · have hdec := decode_of_decodeTableWord h
    obtain ⟨⟨_, _, hy⟩, _⟩ := decode_frame3_iff.1 hdec
    exact ⟨_, _, step_placeFrame (held := [_, _]) hy (Nat.succ_pos 1) rfl s, exec_frame3_of_decode hdec s,
      completeData_holdFrame_narrow _ _ _ s⟩
  · have hdec := decode_of_decodeTableWord h
    obtain ⟨⟨_, _, _, _, hv⟩, _⟩ := decode_frame5_iff.1 hdec
    exact ⟨_, _, step_placeFrame (held := [_, _, _, _]) hv (Nat.succ_pos 3) rfl s,
      exec_frame5_of_decode hdec s, completeData_holdFrame_wide _ _ _ _ _ s⟩

end Sys2Proof.Machine

/-! Proofs about streams: what the block emits for them is computed on the rules' list form, by `feedAll`,
and carried to the machine by the simulation. -/

namespace Sys2Proof.Safety

open Machine

namespace Rules

/-! ### The rules' feed over a stream -/

/-- `feed` of each byte of a stream, with all events. -/
def feedAll (c : Config) : Decoder → List Byte → Decoder × List Event
  | d, [] => (d, [])
  | d, b :: bs =>
    let r := feed c d b
    let q := feedAll c r.1 bs
    (q.1, r.2 ++ q.2)

/-- A buffer that is not complete: R17 (a) on the list form. -/
def Short (d : Decoder) : Prop := d.buf.length < frameWidth d.wide

variable {c : Config} {d d₁ d₂ : Decoder} {b : Byte} {bs cs ds : List Byte} {evs₁ evs₂ : List Event}

theorem feedAll_cons_of_feed (h₁ : feed c d b = (d₁, evs₁)) (h₂ : feedAll c d₁ bs = (d₂, evs₂)) :
    feedAll c d (b :: bs) = (d₂, evs₁ ++ evs₂) := by
  simp only [feedAll, h₁, h₂]

theorem feedAll_singleton_of_feed (h : feed c d b = (d₁, evs₁)) :
    feedAll c d [b] = (d₁, evs₁) := by
  simp only [feedAll, h, List.append_nil]

theorem feedAll_append_of (h₁ : feedAll c d bs = (d₁, evs₁)) (h₂ : feedAll c d₁ cs = (d₂, evs₂)) :
    feedAll c d (bs ++ cs) = (d₂, evs₁ ++ evs₂) := by
  induction bs generalizing d evs₁ with
  | nil =>
    cases h₁
    exact h₂
  | cons b bs ih =>
    simp only [feedAll, Prod.mk.injEq] at h₁
    obtain ⟨hd, rfl⟩ := h₁
    rw [List.append_assoc]
    exact feedAll_cons_of_feed rfl (ih (Prod.ext hd rfl))

/-! ### The parts of a stream -/

theorem short_of_nil (h : d.buf = []) : Short d := by
  rw [Short, h]
  cases d.wide <;> decide

theorem feed_sync_of_short (hb : SyncByte b) (h : Short d) :
    feed c d b =
      ({ buf := [b], cnt := 0, wide := decide (counted c d.cnt = 5), prev := d.prev }, []) :=
  feed_of_sync_incomplete hb h.ne

/-- Data bytes that meet an empty buffer are counted and dropped (R81). -/
theorem feedAll_idle (hds : ∀ x ∈ ds, DataByte x) (h : d.buf = []) :
    feedAll c d ds = ({ d with cnt := (counted c)^[ds.length] d.cnt }, []) := by
  induction ds generalizing d with
  | nil => rfl
  | cons x ds ih =>
    obtain ⟨hx, hds⟩ := List.forall_mem_cons.1 hds
    exact feedAll_cons_of_feed (feed_of_data_idle hx h) (ih hds h)

/-- Data bytes that meet an opened frame and do not fill it are appended (R82). -/
theorem feedAll_payload (hds : ∀ x ∈ ds, DataByte x) (h0 : d.buf ≠ [])
    (h : d.buf.length + ds.length < frameWidth d.wide) :
    feedAll c d ds =
      ({ d with buf := d.buf ++ ds, cnt := (counted c)^[ds.length] d.cnt }, []) := by
  induction ds generalizing d with
  | nil => simp [feedAll]
  | cons x ds ih =>
    obtain ⟨hx, hds⟩ := List.forall_mem_cons.1 hds
    rw [List.length_cons] at h
    have hnext := ih (d := { d with buf := d.buf ++ [x], cnt := counted c d.cnt }) hds
      (List.append_ne_nil_of_right_ne_nil _ (List.cons_ne_nil _ _))
      (by simp only [List.length_append, List.length_singleton]; omega)
    rw [List.append_assoc, List.singleton_append] at hnext
    exact feedAll_cons_of_feed (feed_of_data_short hx h0 (by omega)) hnext

/-- A sync byte and fewer data bytes than its dialect asks for: a frame in progress, no event. -/
theorem feedAll_partialFrame {w : Bool} (hw : decide (counted c d.cnt = 5) = w) (h : Short d)
    (hb : SyncByte b) (hds : ∀ x ∈ ds, DataByte x) (hlen : ds.length + 1 < frameWidth w) :
    feedAll c d (b :: ds) =
      ({ buf := b :: ds, cnt := (counted c)^[ds.length] 0, wide := w, prev := d.prev }, []) := by
  subst hw
  refine feedAll_cons_of_feed (evs₂ := []) (feed_sync_of_short hb h) ?_
  exact feedAll_payload hds (List.cons_ne_nil _ _) (by rw [List.length_singleton, Nat.add_comm]; exact hlen)

/-- A sync byte and as many data bytes as its dialect asks for: one whole frame, interpreted (R83). -/
theorem feedAll_frame {w : Bool} (hw : decide (counted c d.cnt = 5) = w) (h : Short d)
    (hb : SyncByte b) (hds : ∀ x ∈ ds, DataByte x) (hlen : ds.length + 1 = frameWidth w) :
    feedAll c d (b :: ds) =
      ({ buf := [], cnt := (counted c)^[ds.length] 0, wide := w, prev := b },
        frameEvents c d.prev b (pairsOf ds)) := by
  have hne : ds ≠ [] := by
    rintro rfl
    cases w <;> exact absurd hlen (by decide)
  obtain ⟨held, last, rfl⟩ := (List.eq_nil_or_concat' ds).resolve_left hne
  rw [List.length_append, List.length_singleton] at hlen
  have hheld := feedAll_partialFrame hw h hb
    (fun x hx => hds x (List.mem_append_left _ hx)) (by omega : held.length + 1 < _)
  have hlast := feed_of_data_full (c := c)
    (d := { buf := b :: held, cnt := (counted c)^[held.length] 0, wide := w, prev := d.prev })
    (hds last (List.mem_append_right _ (List.mem_singleton_self last))) (List.cons_ne_nil _ _) hlen
  have hall := feedAll_append_of hheld (feedAll_singleton_of_feed hlast)
  rw [← Function.iterate_succ_apply' (counted c)] at hall
  rw [List.length_append, List.length_singleton]
  exact hall

/-! ### Frames met in the right and in the wrong dialect, with the unbounded counter -/

section
variable (hnone : c.cntModulus = none)
include hnone

theorem selects_wide_iff (n : Nat) : counted c n = 5 ↔ n = 4 := by
  rw [counted_of_none hnone]
  omega

/-- R87 (a): the frame is cut as Narrow after its first pair, the rest is dropped, and the count is then 4. -/
theorem feedAll_wideFrame_in_narrow (h : Short d) (hcnt : d.cnt ≠ 4) {b' x y u v : Byte}
    (hb : SyncByte b) (hb' : SyncByte b') (hds : ∀ z ∈ [x, y, u, v], DataByte z) :
    feedAll c d (wframe b x y u v ++ [b']) =
      ({ buf := [b'], cnt := 0, wide := true, prev := b }, frameEvents c d.prev b [(x, y)]) := by
  have hfirst := feedAll_frame (c := c) (ds := [x, y])
    (decide_eq_false (mt (selects_wide_iff hnone _).1 hcnt)) h hb
    (fun z hz => hds z (List.mem_append_left [u, v] hz)) rfl
  have hrest := feedAll_idle (c := c) (ds := [u, v])
    (d := { buf := [], cnt := 2, wide := false, prev := b })
    (fun z hz => hds z (List.mem_append_right [x, y] hz)) rfl
  have hnext := feed_sync_of_short (c := c) (b := b')
    (d := { buf := [], cnt := 4, wide := false, prev := b }) hb' (short_of_nil rfl)
  rw [counted_iterate_of_none hnone] at hfirst hrest
  rw [counted_of_none hnone] at hnext
  have hall := feedAll_append_of hfirst
    (feedAll_append_of hrest (feedAll_singleton_of_feed hnext))
  rw [List.append_nil, List.append_nil] at hall
  exact hall

/-- A frame cut as Wide that the next sync byte finds incomplete is dropped. -/
theorem feedAll_dropped_in_wide (h : Short d) (hcnt : d.cnt = 4) (hb : SyncByte b)
    (hds : ∀ z ∈ ds, DataByte z) (hlen : ds.length < 4) :
    feedAll c d (b :: ds) =
      ({ buf := b :: ds, cnt := ds.length, wide := true, prev := d.prev }, []) := by
  rw [feedAll_partialFrame (decide_eq_true ((selects_wide_iff hnone _).2 hcnt)) h hb hds
    (Nat.succ_lt_succ hlen), counted_iterate_of_none hnone, Nat.zero_add]

/-- R87 (b). -/
theorem feedAll_narrowFrame_in_wide (h : Short d) (hcnt : d.cnt = 4) {b' x y : Byte}
    (hb : SyncByte b) (hb' : SyncByte b') (hx : DataByte x) (hy : DataByte y) :
    feedAll c d (nframe b x y ++ [b']) =
      ({ buf := [b'], cnt := 0, wide := false, prev := d.prev }, []) := by
  have hlost := feedAll_dropped_in_wide hnone h hcnt hb (ds := [x, y])
    (List.forall_mem_cons.2 ⟨hx, List.forall_mem_singleton.2 hy⟩) (by simp)
  have hnext := feed_sync_of_short (c := c) (b := b')
    (d := { buf := [b, x, y], cnt := 2, wide := true, prev := d.prev }) hb'
    (by simp [Short, frameWidth])
  have hall := feedAll_append_of hlost (feedAll_singleton_of_feed hnext)
  rwa [counted_of_none hnone] at hall

/-- R87 (c): the short frame is dropped, and the next one is a Wide frame met in Narrow. -/
theorem feedAll_wideFrame_after_lostByte (h : Short d) (hcnt : d.cnt = 4)
    {b₀ p q r b₁ x y u v b₂ : Byte} (hb₀ : SyncByte b₀) (hb₁ : SyncByte b₁) (hb₂ : SyncByte b₂)
    (hds : ∀ z ∈ [p, q, r, x, y, u, v], DataByte z) :
    feedAll c d ([b₀, p, q, r] ++ wframe b₁ x y u v ++ [b₂]) =
      ({ buf := [b₂], cnt := 0, wide := true, prev := b₁ },
        frameEvents c d.prev b₁ [(x, y)]) := by
  have hlost := feedAll_dropped_in_wide hnone h hcnt hb₀ (ds := [p, q, r])
    (fun z hz => hds z (List.mem_append_left [x, y, u, v] hz)) (by simp)
  have hnext := feedAll_wideFrame_in_narrow hnone
    (d := { buf := [b₀, p, q, r], cnt := 3, wide := true, prev := d.prev })
    (by simp [Short, frameWidth]) (Nat.succ_ne_succ_iff.2 (by decide)) hb₁ hb₂
    (fun z hz => hds z (List.mem_append_right [p, q, r] hz))
  have hall := feedAll_append_of hlost hnext
  rwa [List.nil_append, ← List.append_assoc] at hall

/-- An idle block in which the next sync byte selects the dialect `wide`. -/
def AwaitsFrame (wide : Bool) (d : Decoder) : Prop := d.buf = [] ∧ (d.cnt = 4 ↔ wide = true)

/-- Each whole frame is decoded, and the count it leaves selects its dialect again. -/
theorem feedAll_frames {wide : Bool} (frames : List (Byte × List Byte)) (h : AwaitsFrame wide d)
    (hframes : ∀ f ∈ frames, SyncByte f.1 ∧ f.2.length + 1 = frameWidth wide ∧
      ∀ x ∈ f.2, DataByte x) :
    ∃ d', feedAll c d (frames.map (fun f => f.1 :: f.2)).flatten =
      (d', sessionEvents c d.prev frames) ∧ AwaitsFrame wide d' := by
  induction frames generalizing d with
  | nil => exact ⟨d, rfl, h⟩
  | cons f frames ih =>
    obtain ⟨⟨hb, hlen, hds⟩, hrest⟩ := List.forall_mem_cons.1 hframes
    obtain ⟨hbuf, hcnt⟩ := h
    have hw : decide (counted c d.cnt = 5) = wide :=
      Bool.eq_iff_iff.2 (by rw [decide_eq_true_iff, selects_wide_iff hnone, hcnt])
    have hfirst := feedAll_frame hw (short_of_nil hbuf) hb hds hlen
    rw [counted_iterate_of_none hnone, Nat.zero_add] at hfirst
    have hagain : AwaitsFrame wide { buf := [], cnt := f.2.length, wide := wide, prev := f.1 } := by
      refine ⟨rfl, ?_⟩
      cases wide <;> simp [frameWidth] at hlen ⊢ <;> omega
    obtain ⟨d', hrun, hend⟩ := ih hagain hrest
    exact ⟨d', feedAll_append_of hfirst hrun, hend⟩

end

/-- From an empty buffer, data bytes are counted only, and the sync byte after them selects by the count. -/
theorem feedAll_idle_sync (hds : ∀ x ∈ ds, DataByte x) (h : d.buf = []) (hb : SyncByte b) :
    feedAll c d (ds ++ [b]) =
      ({ buf := [b], cnt := 0, wide := decide ((counted c)^[ds.length + 1] d.cnt = 5),
         prev := d.prev }, []) := by
  rw [feedAll_append_of (feedAll_idle hds h)
    (feedAll_singleton_of_feed (feed_sync_of_short hb (short_of_nil h))),
    ← Function.iterate_succ_apply' (counted c)]
  rfl

/-- With every button released before, the button events are a press for each one held (R138 (b)). -/
theorem buttonEvents_released (c : Config) (b : Byte) :
    buttonEvents c 0xFF b = ([ButtonId.left, .middle, .right].filter (fun id => pressed c id b)).map
      (fun id => .buttonChanged id true) := by
  have one : ∀ id, buttonEvent c id 0xFF b =
      if pressed c id b then [.buttonChanged id true] else [] := by
    intro id
    rw [buttonEvent, pressed_released]
    cases pressed c id b <;> rfl
  simp only [buttonEvents, one, List.filter_cons, List.filter_nil]
  split_ifs <;> rfl

end Rules

/-! ### From the list form to the machine -/

theorem short_listForm {s : State} (h : s.len < Rules.frameWidth s.wide) :
    Rules.Short (listForm s) := by
  rw [Rules.Short, listForm_buf_length (h.le.trans (frameWidth_le_five _))]
  exact h

theorem Simulates.trans {s t u : State} {r q : Rules.Decoder × List Event}
    (hst : Simulates s t r) (htu : Simulates t u q) : Simulates s u (q.1, r.2 ++ q.2) where
  form := htu.form
  out := by rw [htu.out, hst.out, List.append_assoc]
  cfg := htu.cfg.trans hst.cfg
  input := htu.input.trans hst.input

theorem simulates_deliverAll (bs : List Byte) {s : State} (h : s.len < Rules.frameWidth s.wide) :
    ∃ t, deliverAll bs s = some t ∧ t.len < Rules.frameWidth t.wide ∧
      Simulates s t (Rules.feedAll s.cfg (listForm s) bs) := by
  induction bs generalizing s with
  | nil => exact ⟨s, rfl, h, rfl, (List.append_nil _).symm, rfl, rfl⟩
  | cons b bs ih =>
    have hle : s.len ≤ 4 := by
      have := frameWidth_le_five s.wide
      omega
    have hfirst := simulates_feedByte (b := b) (.inl hle)
    obtain ⟨t, hrun, hlen, hsim⟩ := ih (feedByte_len_lt_frameWidth h b)
    rw [feedByte_cfg, hfirst.form] at hsim
    exact ⟨t, by rw [deliverAll_cons_eq_feedByte, hrun], hlen, hfirst.trans hsim⟩

/-- The fields of the state a stream leaves are those the rules compute over the list form. -/
theorem deliverAll_of_feedAll {bs : List Byte} {s : State} {d : Rules.Decoder} {evs : List Event}
    (h : s.len < Rules.frameWidth s.wide) (hr : Rules.feedAll s.cfg (listForm s) bs = (d, evs)) :
    ∃ t, deliverAll bs s = some t ∧ t.len = d.buf.length ∧ t.cnt = d.cnt ∧ t.wide = d.wide ∧
      t.prevBtn = d.prev ∧ t.out = s.out ++ evs := by
  obtain ⟨t, hrun, hlen, hsim⟩ := simulates_deliverAll bs h
  obtain rfl : listForm t = d := by rw [hsim.form, hr]
  refine ⟨t, hrun, ?_, rfl, rfl, rfl, by rw [hsim.out, hr]⟩
  exact (listForm_buf_length (hlen.le.trans (frameWidth_le_five _))).symm

/-! ### The obligations about streams -/

/-- Construction's buffer is empty, so not complete. -/
theorem construct_short (c : Config) :
    (State.construct c).len < Rules.frameWidth (State.construct c).wide :=
  (bufferInv_of_idle rfl).lenBound

/-- Settles O12: before the first sync byte the buffer stays empty, and the count starts at 0. -/
theorem leadingBytesChooseFirstDialect : Obligations.LeadingBytesChooseFirstDialect := by
  intro c ds b hnone hds hb
  obtain ⟨t, hrun, _, _, hwide, _, hout⟩ := deliverAll_of_feedAll (construct_short c)
    (Rules.feedAll_idle_sync hds rfl hb)
  have hcount : t.wide = decide ((Rules.counted c)^[ds.length + 1] 0 = 5) := hwide
  refine ⟨t, hrun, hout, ?_⟩
  rw [hcount, decide_eq_true_iff, counted_iterate_of_none hnone]
  omega

/-- Settles O33: from a count of 0 the frame is Narrow, and its buttons are reported against released ones. -/
theorem firstFrameReportsHeldButtons : Obligations.FirstFrameReportsHeldButtons := by
  intro c b x y hb hx hy
  obtain ⟨t, hrun, hlen, _, _, hprev, hout⟩ := deliverAll_of_feedAll (construct_short c)
    (Rules.feedAll_frame (ds := [x, y]) (decide_eq_false (counted_zero_ne_five c))
      (short_listForm (construct_short c)) hb
      (List.forall_mem_cons.2 ⟨hx, List.forall_mem_singleton.2 hy⟩) rfl)
  refine ⟨t, hrun, hlen, hprev, ?_⟩
  rw [hout, ← Rules.buttonEvents_released]
  simp [State.construct, listForm, Rules.frameEvents, Rules.pairsOf]

/-- Settles O46: the frame's width is the one the sync byte selects, so its bytes are one whole frame. -/
theorem syncResynchronizes : Obligations.SyncResynchronizes := by
  intro s b ds h hb hds hlen
  obtain ⟨t, hrun, hidle, _, hwide, hprev, hout⟩ :=
    deliverAll_of_feedAll h (Rules.feedAll_frame rfl (short_listForm h) hb hds hlen)
  exact ⟨t, hrun, hidle, hprev, hwide, hout⟩

/-- Settles O47: the four payload bytes are a Narrow payload and two dropped bytes, which bring the count
to 4. -/
theorem wideDeviceMetInNarrow : Obligations.WideDeviceMetInNarrow := by
  intro s b x y u v b' h hnone hcnt hb hb' hds
  obtain ⟨t, hrun, hlen, _, hwide, _, hout⟩ := deliverAll_of_feedAll h
    (Rules.feedAll_wideFrame_in_narrow hnone (short_listForm h) hcnt hb hb' hds)
  exact ⟨t, hrun, hwide, hlen, hout⟩

/-- Settles O48: two payload bytes do not fill a Wide frame, and leave a count of 2. -/
theorem narrowDeviceMetInWide : Obligations.NarrowDeviceMetInWide := by
  intro s b x y b' h hnone hcnt hb hb' hx hy
  obtain ⟨t, hrun, hlen, _, hwide, hprev, hout⟩ := deliverAll_of_feedAll h
    (Rules.feedAll_narrowFrame_in_wide hnone (short_listForm h) hcnt hb hb' hx hy)
  exact ⟨t, hrun, hwide, hlen, by rw [hout, List.append_nil], hprev⟩

/-- Settles O49: the short frame leaves a count of 3, so the next frame is met in Narrow. -/
theorem lostByteCostsFrameAndHalf : Obligations.LostByteCostsFrameAndHalf := by
  intro s b₀ p q r b₁ x y u v b₂ h hnone hcnt hb₀ hb₁ hb₂ hds
  obtain ⟨t, hrun, hlen, _, hwide, _, hout⟩ := deliverAll_of_feedAll h
    (Rules.feedAll_wideFrame_after_lostByte hnone (short_listForm h) hcnt hb₀ hb₁ hb₂ hds)
  exact ⟨t, hrun, hwide, hlen, hout⟩

/-- Settles O50, by the induction over the frames of `feedAll_frames`. -/
theorem wholeFramesAreAllDecoded : Obligations.WholeFramesAreAllDecoded := by
  intro wide s frames hnone hidle hcnt hframes
  have h : s.len < Rules.frameWidth s.wide := (bufferInv_of_idle hidle).lenBound
  obtain ⟨d, hrun, hbuf, hcnt'⟩ := Rules.feedAll_frames hnone (d := listForm s) frames
    ⟨listForm_buf_eq_nil_iff.2 hidle, hcnt⟩ hframes
  obtain ⟨t, hdeliver, hlen, htcnt, _, _, hout⟩ := deliverAll_of_feedAll h hrun
  exact ⟨t, hdeliver, by rw [hlen, hbuf]; rfl, by rw [htcnt]; exact hcnt', hout⟩

end Sys2Proof.Safety
